-- ==== Sys2Proof/Word.lean ====
section
/-! DEFINITION. The word types of the EPD6 CORE and the plain data built from them: bytes, pixel colours, the palette's six colours. -/

namespace Sys2Proof

/-- A byte, 8 bits (00_scope.md R7). -/
abbrev Byte := BitVec 8

/-- A 32-bit word: a command word or a register (10_state.md section 2, 30_encoding.md R90). -/
abbrev Word32 := BitVec 32

/-- A palette identifier, a `u4` (30_encoding.md R97). -/
abbrev PalId := BitVec 4

/-- A pixel colour, a triple of `u8` (00_scope.md R10). -/
structure Rgb where
  r : Byte
  g : Byte
  b : Byte
  deriving DecidableEq, Repr, Inhabited

/-- The six colours of the palette ROM, in iteration order (10_state.md R29, 40_quantizer.md R130). -/
structure Palette where
  black  : Rgb
  white  : Rgb
  yellow : Rgb
  red    : Rgb
  blue   : Rgb
  green  : Rgb
  deriving DecidableEq, Repr, Inhabited

/-- The six colours as a list, in iteration order. -/
def Palette.colours (p : Palette) : List Rgb := [p.black, p.white, p.yellow, p.red, p.blue, p.green]

/-- 40_quantizer.md R131: whatever the colours are, they are pairwise distinct. -/
abbrev Palette.Distinct (p : Palette) : Prop := p.colours.Nodup

/-- The default palette of 40_quantizer.md R131, a reference value only (93_implementation_defined.md G1). -/
def Palette.reference : Palette :=
  { black := ⟨0, 0, 0⟩, white := ⟨255, 255, 255⟩, yellow := ⟨255, 255, 0⟩
    red := ⟨255, 0, 0⟩, blue := ⟨0, 0, 255⟩, green := ⟨0, 255, 0⟩ }

end Sys2Proof
end

