-- ==== Sys2Proof/Config.lean ====
section
/-! DEFINITION. The implementation parameters of 00_scope.md R6 and the free values (the environment's draws and what the spec leaves open), as one structure; and the configuration of this hardware. -/

namespace Sys2Proof

/-- The three output lines (10_state.md R33). -/
inductive Line where
  | rst
  | dc
  | pwr
  deriving DecidableEq, Repr, Inhabited

/-- The outcome of an `Acq`, `Set` or `Xfer` event (44_panel_protocol.md R200). -/
inductive Ack where
  | ok
  | err
  deriving DecidableEq, Repr, Inhabited

/-- The parameter `fs_round` (42_dither.md R166). -/
inductive FsRound where
  | truncDiv
  | floorShift
  | roundNearest
  deriving DecidableEq, Repr

/-- The parameter `atk_west` (42_dither.md R171). -/
inductive AtkWest where
  | discard
  | rowWrap
  deriving DecidableEq, Repr

/-- The parameters every rule takes (00_scope.md R6), then the draws of 93_implementation_defined.md part 1, each a function of how many values were drawn before it. -/
structure Config where
  /-- Frame width in pixels. -/
  W : Nat
  /-- Frame height in pixels. -/
  H : Nat
  /-- `palette_rgb`, the contents of the palette ROM. -/
  palette : Palette
  fsRound : FsRound
  atkWest : AtkWest
  /-- `busy_idle_level`: the BUSY level that means idle. -/
  busyIdleLevel : Bool
  pollMs : Nat
  busyTimeoutMs : Nat
  resetHoldMs : Nat
  /-- `spi_hz`, the bit clock; no rule reads it. -/
  spiHz : Nat
  /-- `spi_mode`, clock polarity and phase; no rule but the transfer's format reads it. -/
  spiMode : Nat
  /-- `init_payload[c]`: the data bytes sent after init command byte `c`. -/
  initPayload : Byte → List Byte
  /-- `extra_payload[c]` for 0x04, 0x12 and 0x02. -/
  extraPayload : Byte → List Byte
  /-- `turnon_booster_cmds`: the booster commands the turn-on sequence sends again. -/
  turnonBooster : List Byte
  /-- U9: the outcome of the event drawn as the n-th value. -/
  ack : Nat → Ack
  /-- U9: what a `Sample` reads: a level, or `none` for `err`. -/
  sample : Nat → Option Bool
  /-- U8: after a `Set` whose outcome is `err`, whether the latch took the new level. -/
  latchTaken : Nat → Bool
  /-- U10: the milliseconds a `Hold(t)` lasts beyond `t`. -/
  holdExtra : Nat → Nat
  /-- U12: the time base after a reset. -/
  timeAtReset : Nat → Nat
  /-- U7: the level the board gives a released pin. -/
  boardLevel : Nat → Line → Bool

/-- OPEN (D3): the palette's colours. -/
opaque Config.openPalette : Palette

/-- OPEN (D27): the idle level of BUSY. -/
opaque Config.openBusyIdleLevel : Bool

/-- OPEN (D28): the bound on one busy-wait, in milliseconds. -/
opaque Config.openBusyTimeoutMs : Nat

/-- OPEN (D29): the data bytes of the init commands. -/
opaque Config.openInitPayload : Byte → List Byte

/-- The bit clock's free part; `Config.epd6` maps it into 10 to 20 MHz. -/
opaque Config.openSpiHz : Nat

/-- Free value (U9): the outcome of an `Acq`, `Set` or `Xfer`. -/
opaque Config.freeAck : Nat → Ack

/-- Free value (U9): what a `Sample` reads. -/
opaque Config.freeSample : Nat → Option Bool

/-- Free value (U8): whether a failed `Set` changed its latch. -/
opaque Config.freeLatchTaken : Nat → Bool

/-- Free value (U10): how much longer a hold lasts than its bound. -/
opaque Config.freeHoldExtra : Nat → Nat

/-- Free value (U12): the time base after a reset. -/
opaque Config.freeTimeAtReset : Nat → Nat

/-- Free value (U12): the time base of `State.reset`, before any value is drawn. -/
opaque Config.freePowerUpTime : Nat

/-- Free value (U7): the level the board gives a released pin. -/
opaque Config.freeBoardLevel : Nat → Line → Bool

/-- This hardware (00_scope.md R6, the "value" column). OPEN parameters and draws are opaque constants, so nothing can rest on a value of theirs (DEDUCED, safe: log entries 4 to 6, 8, 9); an OPEN palette that broke the constraint of R131 is replaced by the reference one, so that the constraint holds (DEDUCED, safe: log entry 5). The decided values are the spec's own decisions (DEDUCED, unsafe: log entry 7). -/
def Config.epd6 : Config where
  W := 800
  H := 480
  palette := if Config.openPalette.Distinct then Config.openPalette else Palette.reference
  fsRound := .truncDiv
  atkWest := .discard
  busyIdleLevel := Config.openBusyIdleLevel
  pollMs := 1
  busyTimeoutMs := Config.openBusyTimeoutMs
  resetHoldMs := 20
  spiHz := 10000000 + Config.openSpiHz % 10000001
  spiMode := 0
  initPayload := Config.openInitPayload
  extraPayload := fun _ => []
  turnonBooster := [0x06]
  ack := Config.freeAck
  sample := Config.freeSample
  latchTaken := Config.freeLatchTaken
  holdExtra := Config.freeHoldExtra
  timeAtReset := Config.freeTimeAtReset
  boardLevel := Config.freeBoardLevel

end Sys2Proof
end

