-- ==== Sys2Proof/Syntax.lean ====
section
/-! DEFINITION. The instructions of spec/opcode_table.json: the nine command words the host writes to CMD and the eighteen panel command bytes the sequencer sends. -/

namespace Sys2Proof

/-- One constructor per row of spec/opcode_table.json. The operands of a command word are its fields (30_encoding.md R92 to R94); a panel command byte has none, its payload being a parameter (44_panel_protocol.md section 4). -/
inductive Instr where
  /-- NEAREST, OPC 0x01 (40_quantizer.md R134). -/
  | nearest (r g b : Byte)
  /-- ORIENT, OPC 0x02 (41_orient.md R153). -/
  | orient
  /-- DITHER_FS, OPC 0x03 (42_dither.md R167). -/
  | ditherFs
  /-- DITHER_ATK, OPC 0x04 (42_dither.md R172). -/
  | ditherAtk
  /-- PACK, OPC 0x05 (43_packer.md R192). -/
  | pack
  /-- OPEN, OPC 0x10 (45_session.md R260). -/
  | openSession
  /-- CLEAR, OPC 0x11 (45_session.md R261). -/
  | clear (id : PalId)
  /-- DISPLAY, OPC 0x12 (45_session.md R262). -/
  | display (len : BitVec 24)
  /-- CLOSE, OPC 0x13 (45_session.md R263). -/
  | closeSession
  /-- 0xAA, "CMDH" (44_panel_protocol.md R212). -/
  | panelCmdh
  /-- 0x01, "panel setting" (R213). -/
  | panelPanelSetting
  /-- 0x00, "driver output" (R214). -/
  | panelDriverOutput
  /-- 0x03, "res setting" (R215). -/
  | panelResSetting
  /-- 0x05, "booster soft-start", first (R216). -/
  | panelBoosterSoftStart1
  /-- 0x06, "booster soft-start", second (R217). -/
  | panelBoosterSoftStart2
  /-- 0x08, "booster soft-start", third (R218). -/
  | panelBoosterSoftStart3
  /-- 0x30, "PLL" (R219). -/
  | panelPll
  /-- 0x50, "VCOM" (R220). -/
  | panelVcom
  /-- 0x60, "TCON" (R221). -/
  | panelTcon
  /-- 0x61, "resolution" (R222). -/
  | panelResolution
  /-- 0x84, "TSE" (R223). -/
  | panelTse
  /-- 0xE3, "power saving" (R224). -/
  | panelPowerSaving
  /-- 0x04, "power-on" (R225). -/
  | panelPowerOn
  /-- 0x10, "write RAM" (R226). -/
  | panelWriteRam
  /-- 0x12, "display-refresh" (R227). -/
  | panelDisplayRefresh
  /-- 0x02, "power-off" (R228). -/
  | panelPowerOff
  /-- 0x07, "deep-sleep" (R230). -/
  | panelDeepSleep
  deriving DecidableEq, Repr

end Sys2Proof
end

