-- ==== Sys2Proof/Decode.lean ====
section
/-! DEFINITION. The encodings (30_encoding.md): the decoder of command words and of panel command bytes, total and rejecting by name; then the encoder, written from the same tables; then the host's entry `decodeTableWord`. -/

namespace Sys2Proof

/-- What an instruction is read from: the 32-bit word of CMD (R90), or a byte sent with DC = 0 (R98). -/
inductive Code where
  | cmd (w : Word32)
  | panel (b : Byte)
  deriving DecidableEq, Repr

/-- Why a code is no instruction. The first two are `IllegalCommand` (60_exceptions.md R308). -/
inductive DecodeError where
  /-- OPC is none of the nine of R91 (R102). -/
  | illegalOpcode (opc : Byte)
  /-- A reserved operand bit is 1 (R95). -/
  | reservedOperandBits (opc : Byte)
  /-- A byte that is none of the eighteen of R104. -/
  | unknownPanelByte (b : Byte)
  deriving DecidableEq, Repr

/-- The field OPC, bits 31:24 (R90). -/
def opcOf (w : Word32) : Byte := w.extractLsb' 24 8

/-- The field OPERAND, bits 23:0 (R90). -/
def operandOf (w : Word32) : BitVec 24 := w.extractLsb' 0 24

/-- An operation without operand: every operand bit must be 0 (R95). -/
def decodeBare (w : Word32) (i : Instr) : Except DecodeError Instr :=
  if operandOf w = 0 then .ok i else .error (.reservedOperandBits (opcOf w))

/-- CLEAR's operand: bits 23:4 must be 0, bits 3:0 are ID (R93). Whether ID is a palette identifier is checked at execution (R103). -/
def decodeClear (w : Word32) : Except DecodeError Instr :=
  if w.extractLsb' 4 20 = 0 then .ok (.clear (w.extractLsb' 0 4)) else .error (.reservedOperandBits (opcOf w))

/-- The function `decode` of R103. -/
def decodeCommand (w : Word32) : Except DecodeError Instr :=
  if opcOf w = 0x01 then .ok (.nearest (w.extractLsb' 16 8) (w.extractLsb' 8 8) (w.extractLsb' 0 8))
  else if opcOf w = 0x02 then decodeBare w .orient
  else if opcOf w = 0x03 then decodeBare w .ditherFs
  else if opcOf w = 0x04 then decodeBare w .ditherAtk
  else if opcOf w = 0x05 then decodeBare w .pack
  else if opcOf w = 0x10 then decodeBare w .openSession
  else if opcOf w = 0x11 then decodeClear w
  else if opcOf w = 0x12 then .ok (.display (operandOf w))
  else if opcOf w = 0x13 then decodeBare w .closeSession
  else .error (.illegalOpcode (opcOf w))

/-- The panel command bytes of R104. A model identifies a command by its byte (93_implementation_defined.md G7). -/
def decodePanel (b : Byte) : Except DecodeError Instr :=
  if b = 0xAA then .ok .panelCmdh
  else if b = 0x01 then .ok .panelPanelSetting
  else if b = 0x00 then .ok .panelDriverOutput
  else if b = 0x03 then .ok .panelResSetting
  else if b = 0x05 then .ok .panelBoosterSoftStart1
  else if b = 0x06 then .ok .panelBoosterSoftStart2
  else if b = 0x08 then .ok .panelBoosterSoftStart3
  else if b = 0x30 then .ok .panelPll
  else if b = 0x50 then .ok .panelVcom
  else if b = 0x60 then .ok .panelTcon
  else if b = 0x61 then .ok .panelResolution
  else if b = 0x84 then .ok .panelTse
  else if b = 0xE3 then .ok .panelPowerSaving
  else if b = 0x04 then .ok .panelPowerOn
  else if b = 0x10 then .ok .panelWriteRam
  else if b = 0x12 then .ok .panelDisplayRefresh
  else if b = 0x02 then .ok .panelPowerOff
  else if b = 0x07 then .ok .panelDeepSleep
  else .error (.unknownPanelByte b)

/-- The decoder of both encodings. -/
def decode : Code → Except DecodeError Instr
  | .cmd w => decodeCommand w
  | .panel b => decodePanel b

/-- The word of an operation without operand. -/
def encodeBare (opc : Byte) : Code := .cmd (opc ++ (0 : BitVec 24))

/-- The encoder, from the tables R91 to R94 and R104; reserved bits are 0. -/
def encode : Instr → Code
  | .nearest r g b => .cmd ((0x01 : Byte) ++ r ++ g ++ b)
  | .orient => encodeBare 0x02
  | .ditherFs => encodeBare 0x03
  | .ditherAtk => encodeBare 0x04
  | .pack => encodeBare 0x05
  | .openSession => encodeBare 0x10
  | .clear id => .cmd ((0x11 : Byte) ++ (0 : BitVec 20) ++ id)
  | .display len => .cmd ((0x12 : Byte) ++ len)
  | .closeSession => encodeBare 0x13
  | .panelCmdh => .panel 0xAA
  | .panelPanelSetting => .panel 0x01
  | .panelDriverOutput => .panel 0x00
  | .panelResSetting => .panel 0x03
  | .panelBoosterSoftStart1 => .panel 0x05
  | .panelBoosterSoftStart2 => .panel 0x06
  | .panelBoosterSoftStart3 => .panel 0x08
  | .panelPll => .panel 0x30
  | .panelVcom => .panel 0x50
  | .panelTcon => .panel 0x60
  | .panelResolution => .panel 0x61
  | .panelTse => .panel 0x84
  | .panelPowerSaving => .panel 0xE3
  | .panelPowerOn => .panel 0x04
  | .panelWriteRam => .panel 0x10
  | .panelDisplayRefresh => .panel 0x12
  | .panelPowerOff => .panel 0x02
  | .panelDeepSleep => .panel 0x07

/-- The panel command bytes in the order of the table of R104. -/
def panelBytes : List Byte :=
  [0xAA, 0x01, 0x00, 0x03, 0x05, 0x06, 0x08, 0x30, 0x50, 0x60, 0x61, 0x84, 0xE3, 0x04, 0x10, 0x12, 0x02, 0x07]

/-- The code whose bits are `w`: 32 bits are a command word, 8 bits a panel command byte, and the table has no other length. -/
def tableCode (nbits w : Nat) : Option Code :=
  if nbits = 32 then some (.cmd (BitVec.ofNat 32 w))
  else if nbits = 8 then some (.panel (BitVec.ofNat 8 w))
  else none

/-- The host's question of the decoder: the instruction of `nbits` bits whose bits are `w`. -/
def decodeTableWord (nbits w : Nat) : Option Instr :=
  match tableCode nbits w with
  | none => none
  | some c =>
    match decode c with
    | .ok i => some i
    | .error _ => none

end Sys2Proof
end

