-- ==== Sys2Proof/Machine/State.lean ====
section
/-! DEFINITION. The state of the EPD6 CORE (10_state.md R20), the reasons a step can stop, and the state after reset (R37). -/

namespace Sys2Proof.Machine

/-- A memory: its written bytes by offset, offsets strictly rising. An offset that is not listed has never been written, so the listing is the written-flag (10_state.md R31; DEDUCED, safe: log entry 10). -/
abbrev Mem := List Host.Cell

/-- The session state SESS (45_session.md R250). -/
inductive Sess where
  | closed
  | opening
  | idle
  | busy
  | sleeping
  | failed
  deriving DecidableEq, Repr, Inhabited

/-- The error codes of STATUS.ERR (60_exceptions.md R301). -/
inductive Err where
  | ok
  | dimensionMismatch
  | oddPixelCount
  | sizeMismatch
  | busError
  | deviceTimeout
  | illegalState
  | illegalCommand
  deriving DecidableEq, Repr, Inhabited

/-- The external events of the trace, each with the outcome the environment gave it (44_panel_protocol.md R200). -/
inductive Event where
  | acq (a : Ack)
  | rel
  | set (l : Line) (v : Bool) (a : Ack)
  | xfer (dc : Bool) (b : Byte) (a : Ack)
  | hold (t : Nat)
  /-- The level read, or `none` for `err`. -/
  | sample (v : Option Bool)
  deriving DecidableEq, Repr

/-- One operation of the sequencer's script (10_state.md R34): an event, a group of events still to be unfolded, or a change of state between events. -/
inductive Op where
  /-- Fetch, decode and execute: an accepted command word or the next panel command byte. -/
  | instr (c : Code)
  /-- `Acq` (44_panel_protocol.md R203). -/
  | acq
  /-- `Set(l, v)` (R204). -/
  | set (l : Line) (v : Bool)
  /-- `Xfer(b)` (R205). -/
  | xfer (b : Byte)
  /-- `Hold(t)` (R200). -/
  | hold (t : Nat)
  /-- `BusyWait()` at its sample, `k` poll intervals waited (R209). -/
  | busyWait (k : Nat)
  /-- `BusyWait()` at its hold, `k` poll intervals waited (R209). -/
  | pollHold (k : Nat)
  /-- `SendData(b)`, `n` times more (45_session.md R261). -/
  | fill (b : Byte) (n : Nat)
  /-- `SendData` of the `n` bytes of PACK_RAM from offset `k` on (45_session.md R262). -/
  | stream (k n : Nat)
  /-- `SESS <- x`. -/
  | sess (x : Sess)
  /-- `Set(l, 0)` of `ReleaseAll`, its outcome ignored (44_panel_protocol.md R203). -/
  | relSet (l : Line)
  /-- `Rel` (R203). -/
  | rel
  /-- The command's completion: `SESS <- x`, then ERR, STATE and RUN (60_exceptions.md R300). -/
  | finish (x : Sess) (e : Err)
  /-- A model fault has taken the command's defined result away (R309, 20_memory.md R78): no operation is left but to wait for a core reset (DESIGN CHOICE, unsafe: log entry 32). -/
  | halted
  deriving DecidableEq, Repr

/-- The width of a host access (20_memory.md R64). -/
inductive Width where
  | w8
  | w16
  | w32
  deriving DecidableEq, Repr

/-- What the host or the platform does next (70_reset_and_hazards.md R353, 30_encoding.md R100, R101; DESIGN CHOICE, safe: log entry 3). -/
inductive HostAct where
  /-- A read of the host port. -/
  | rd (w : Width) (a : BitVec 24)
  /-- A write of the host port; a narrow write uses the low bits of `v`. -/
  | wr (w : Width) (a : BitVec 24) (v : Word32)
  /-- The host makes no access while the core makes one step. -/
  | pass
  /-- `WAIT`: the host polls STATUS until RUN reads 0. -/
  | wait
  /-- The platform resets the core (70_reset_and_hazards.md R340). -/
  | reset
  deriving DecidableEq, Repr

/-- The three model faults of 60_exceptions.md R309. -/
inductive ModelFault where
  /-- A read, by the host port or by ORIENT, DITHER_FS, DITHER_ATK, PACK or DISPLAY, of a byte never written (10_state.md R31). -/
  | unwrittenRead
  /-- A host access that is misaligned, of a wrong width or beyond a memory (20_memory.md R65, R69). -/
  | hostAccess
  /-- A host memory access while RUN = 1 (20_memory.md R78). -/
  | hostHazard
  deriving DecidableEq, Repr

/-- The fault set (60_exceptions.md R309): which model faults the run has made. -/
structure FaultSet where
  unwrittenRead : Bool
  hostAccess : Bool
  hostHazard : Bool
  deriving DecidableEq, Repr

/-- Why the machine stops. A model fault of 60_exceptions.md R309 is no such stop: it is recorded in the fault set and the run goes on. -/
inductive Fault where
  /-- CLOSE executed in OPENING, BUSY or SLEEPING, for which 45_session.md R263 has no case; no state with RUN = 0 has them. Safe (DESIGN CHOICE: log entry 15). -/
  | closeInFlight
  deriving DecidableEq, Repr

/-- Why an instruction gets no meaning. -/
inductive Refusal where
  /-- Raised only by a dispatch arm whose instruction has no meaning yet. Safe. -/
  | notModelled (mnemonic : String)
  /-- Raised by the sequencer when a script holds a byte that is no panel command (30_encoding.md R104); no script of the spec holds one. Safe (DESIGN CHOICE: log entry 23). -/
  | unknownPanelByte (b : Byte)
  deriving DecidableEq, Repr

/-- The state (10_state.md R20). The palette ROM's identifiers, ID and CMD hold nothing that changes and have no field. -/
structure State where
  /-- STATUS.RUN (R23). -/
  run : Bool
  /-- SESS, read as STATUS.STATE (R32). -/
  sess : Sess
  /-- STATUS.ERR (R23). -/
  err : Err
  /-- STATUS.OVR (R23). -/
  ovr : Bool
  /-- STATUS.LASTOP (R23). -/
  lastOp : Byte
  /-- RESULT (R24). -/
  result : Word32
  /-- IN_DIM (R25). -/
  inDim : Word32
  /-- The latch of RST (R33). -/
  rst : Bool
  /-- The latch of DC (R33). -/
  dc : Bool
  /-- The latch of PWR (R33). -/
  pwr : Bool
  /-- BUSY at the core's last sample (R33). -/
  busyRaw : Bool
  /-- Whether the core owns the lines and the bus (R33). -/
  own : Bool
  /-- The palette ROM's colours (R29). -/
  palette : Palette
  inRam : Mem
  frameRam : Mem
  packRam : Mem
  /-- The command in progress, once decoded (R34). -/
  cmd : Option Instr
  /-- The position in the command's script: what is still to do (R34). -/
  script : List Op
  /-- The internal time base, in milliseconds (R35). -/
  time : Nat
  /-- The fault set (60_exceptions.md R309). -/
  faults : FaultSet
  /-- The trace, newest event first (44_panel_protocol.md R200; DESIGN CHOICE, safe: log entry 11). -/
  trace : List Event
  /-- The model's own: how many free values were drawn (DESIGN CHOICE, safe: log entry 4). -/
  draws : Nat
  /-- The model's own: what the host and the platform do next (DESIGN CHOICE, safe: log entry 3). -/
  hostQ : List HostAct
  /-- The model's own: what the host port has returned, newest first (DESIGN CHOICE, safe: log entry 11). -/
  reads : List Word32
  deriving DecidableEq, Repr

/-- The state after reset (R37) under the parameters `c`; the fault set is empty, since no fault was made (DEDUCED, safe: log entry 1); the time base is `t`, which R37 leaves unspecified (DESIGN CHOICE, safe: log entry 9). -/
def State.resetWith (c : Config) (t : Nat) : State where
  run := false
  sess := .closed
  err := .ok
  ovr := false
  lastOp := 0
  result := 0
  inDim := 0
  rst := false
  dc := false
  pwr := false
  busyRaw := false
  own := false
  palette := c.palette
  inRam := []
  frameRam := []
  packRam := []
  cmd := none
  script := []
  time := t
  faults := ⟨false, false, false⟩
  trace := []
  draws := 0
  hostQ := []
  reads := []

/-- The machine right after reset. -/
def State.reset : State := State.resetWith Config.epd6 Config.freePowerUpTime

end Sys2Proof.Machine
end

