-- ==== Sys2Proof/Machine/Ops.lean ====
section
/-! DEFINITION. The named operations over the state: bytes of a memory, draws and events, the latches, completion and `raise` (the one shared operation of 60_exceptions.md R300), acceptance of a command word, and the platform reset. -/

namespace Sys2Proof.Machine

/-! ### Bytes of a memory (20_memory.md R66) -/

/-- The byte at offset `a`, or `none` when its written-flag is clear. -/
def readByte : Mem → Nat → Option Byte
  | [], _ => none
  | (k, b) :: m, a => if k = a then some b else readByte m a

/-- The memory after byte `v` is written at offset `a`: its written-flag is set, the offsets still rise. -/
def writeByte : Mem → Nat → Byte → Mem
  | [], a, v => [(a, v)]
  | (k, b) :: m, a, v =>
    if a < k then (a, v) :: (k, b) :: m
    else if a = k then (a, v) :: m
    else (k, b) :: writeByte m a v

/-- The canonical form of a memory of `size` bytes: offsets strictly rise and stay below `size`. -/
abbrev Mem.wf (m : Mem) (size : Nat) : Prop :=
  (m.map Prod.fst).Pairwise (· < ·) ∧ ∀ k ∈ m.map Prod.fst, k < size

/-- The first `n` bytes of a memory all written with `b`. -/
def filled (b : Byte) (n : Nat) : Mem := (List.range n).map fun a => (a, b)

/-- Whether the bytes at offsets 0 to `n - 1` are all written. -/
abbrev AllWritten (m : Mem) (n : Nat) : Prop := ∀ a < n, readByte m a ≠ none

/-- Bytes of IN_RAM and of FRAME_RAM (10_state.md R30). -/
def frameSize (c : Config) : Nat := 3 * c.W * c.H

/-- Bytes of PACK_RAM (10_state.md R30). -/
def packSize (c : Config) : Nat := c.W * c.H / 2

/-- The bytes DISPLAY and CLEAR stream, `W/2*H` (45_session.md R261, R262). -/
def streamSize (c : Config) : Nat := c.W / 2 * c.H

/-- `n_poll = ceil(busy_timeout_ms / poll_ms)` (00_scope.md R6). -/
def nPoll (c : Config) : Nat := (c.busyTimeoutMs + c.pollMs - 1) / c.pollMs

/-- `body i`, `body (i+1)`, ... , `body (i+n-1)`, in this order, stopping at the first unwritten read. -/
def loop {α : Type} (body : Nat → α → Option α) : Nat → Nat → α → Option α
  | 0, _, x => some x
  | n + 1, i, x =>
    match body i x with
    | none => none
    | some y => loop body n (i + 1) y

/-! ### Completion, raise, acceptance -/

/-- A command's completion with session state `x` and code `e` (60_exceptions.md R300, 10_state.md R36): SESS, ERR, STATE, then RUN; no command is in progress any more. -/
def finish (x : Sess) (e : Err) (s : State) : State :=
  { s with sess := x, err := e, run := false, cmd := none, script := [] }

/-- `raise Err(e)` where the command's rule leaves SESS alone, and success with `e = ok` (R300). -/
def complete (e : Err) (s : State) : State := finish s.sess e s

/-- An accepted CMD write of word `v` (10_state.md R22, R36): RUN and LASTOP at once; the sequencer holds the word. -/
def accept (v : Word32) (s : State) : State :=
  { s with run := true, lastOp := opcOf v, cmd := none, script := [.instr (.cmd v)] }

/-- The event script of `ReleaseAll()` (44_panel_protocol.md R203). -/
def releaseTail : List Op := [.relSet .rst, .relSet .dc, .relSet .pwr, .rel]

/-- `raise` of BusError or DeviceTimeout inside a session command (R211): SESS becomes FAILED and the command ends; CLOSE still runs its release tail and ends in CLOSED with the code (45_session.md R263). -/
def abort (e : Err) (s : State) : State :=
  if s.cmd = some .closeSession then { s with script := releaseTail ++ [.finish .closed e] }
  else finish .failed e s

/-! ### Model faults (60_exceptions.md R309) -/

/-- The fault set with one more fault in it. -/
def record (f : ModelFault) (fs : FaultSet) : FaultSet :=
  match f with
  | .unwrittenRead => { fs with unwrittenRead := true }
  | .hostAccess => { fs with hostAccess := true }
  | .hostHazard => { fs with hostHazard := true }

/-- A faulted access: recorded, with no value and no effect (R309). -/
def addFault (f : ModelFault) (s : State) : State := { s with faults := record f s.faults }

/-- A fault that leaves the command in progress no defined result (R309, 20_memory.md R78): recorded, and the command halts until a core reset (DESIGN CHOICE, unsafe: log entry 32). -/
def haltCommand (f : ModelFault) (s : State) : State := { addFault f s with script := [.halted] }

/-! ### Events (44_panel_protocol.md R200) -/

/-- Append an event to the trace; every event uses up one draw. -/
def emit (e : Event) (s : State) : State := { s with trace := e :: s.trace, draws := s.draws + 1 }

/-- The latch of a line. -/
def latch (s : State) : Line → Bool
  | .rst => s.rst
  | .dc => s.dc
  | .pwr => s.pwr

/-- Change the latch of a line. -/
def setLatch (l : Line) (v : Bool) (s : State) : State :=
  match l with
  | .rst => { s with rst := v }
  | .dc => { s with dc := v }
  | .pwr => { s with pwr := v }

/-- The event `Set(l, v)` and its latch (R204): on `err` the latch keeps its level or takes `v`, a draw. -/
def driveLine (c : Config) (l : Line) (v : Bool) (s : State) : State :=
  match c.ack s.draws with
  | .ok => emit (.set l v .ok) (setLatch l v s)
  | .err => emit (.set l v .err) (setLatch l (if c.latchTaken s.draws then v else latch s l) s)

/-- What an outcome does to the command in progress (R211): `err` raises BusError. -/
def orBusError (a : Ack) (s : State) : State :=
  match a with
  | .ok => s
  | .err => abort .busError s

/-- `Set(l, v)` in a script (R204). -/
def setLine (c : Config) (l : Line) (v : Bool) (s : State) : State :=
  orBusError (c.ack s.draws) (driveLine c l v s)

/-- `Xfer(b)` in a script: DC stays at its latched level (R205). -/
def transfer (c : Config) (b : Byte) (s : State) : State :=
  orBusError (c.ack s.draws) (emit (.xfer s.dc b (c.ack s.draws)) s)

/-- `Acquire()` (R203). Its precondition on the latches is not tested (DEDUCED, unsafe: log entry 16). -/
def acquire (c : Config) (s : State) : State :=
  match c.ack s.draws with
  | .ok => { emit (.acq .ok) s with own := true }
  | .err => abort .busError (emit (.acq .err) s)

/-- `Hold(t)` (R200, 10_state.md R35): at least `t` ms pass. -/
def holdFor (c : Config) (t : Nat) (s : State) : State :=
  { emit (.hold t) s with time := s.time + t + c.holdExtra s.draws }

/-- The sample of `BusyWait()` with `k` intervals waited (R209). -/
def pollBusy (c : Config) (k : Nat) (s : State) : State :=
  match c.sample s.draws with
  | none => abort .busError (emit (.sample none) s)
  | some v =>
    let s1 := { emit (.sample (some v)) s with busyRaw := v }
    if v = c.busyIdleLevel then s1
    else if k = nPoll c then abort .deviceTimeout s1
    else { s1 with script := .pollHold k :: s1.script }

/-- `Rel` (R203): ownership ends. -/
def release (s : State) : State := { emit .rel s with own := false }

/-- The level of an output pin (10_state.md R33): the latch while the core owns the lines, else what the board gives (DEDUCED, safe: log entry 22). -/
def pinLevel (c : Config) (s : State) (l : Line) : Bool :=
  if s.own then latch s l else c.boardLevel s.draws l

/-! ### The platform reset (70_reset_and_hazards.md R340, R341) -/

/-- `Rel` is recorded when the core owned the lines. -/
def resetTrace (s : State) : List Event := if s.own then .rel :: s.trace else s.trace

/-- A core reset: the values of 10_state.md R37. The palette ROM is constant and the fault set is not cleared (R340); the trace, the draws and the outside world go on (DEDUCED, safe: log entry 25). -/
def coreReset (c : Config) (s : State) : State :=
  { State.resetWith c (c.timeAtReset s.draws) with
    palette := s.palette, faults := s.faults, trace := resetTrace s, draws := s.draws + 1, hostQ := s.hostQ, reads := s.reads }

end Sys2Proof.Machine
end

