-- ==== Sys2Proof/Machine/Operands.lean ====
section
/-! DEFINITION. What commands operate on: palette entries and the quantizer `nearest` (40_quantizer.md), pixels of a raster (20_memory.md R67), the fields of IN_DIM, the palette identifiers. -/

namespace Sys2Proof.Machine

/-- A palette entry: identifier and colour (40_quantizer.md R130). -/
structure PalEntry where
  id : PalId
  rgb : Rgb
  deriving DecidableEq, Repr

/-- The entries `P[0..5]` in iteration order (R130). -/
def paletteEntries (p : Palette) : List PalEntry :=
  [⟨0x0, p.black⟩, ⟨0x1, p.white⟩, ⟨0x2, p.yellow⟩, ⟨0x3, p.red⟩, ⟨0x5, p.blue⟩, ⟨0x6, p.green⟩]

/-- The palette identifiers (30_encoding.md R97). -/
def paletteIds : List PalId := [0x0, 0x1, 0x2, 0x3, 0x5, 0x6]

/-- The signed difference of two channels, exactly. -/
def chanDiff (a b : Byte) : Int := (a.toNat : Int) - (b.toNat : Int)

/-- The squared Euclidean distance, computed in `int` (R132). -/
def dist (a b : Rgb) : Int :=
  chanDiff a.r b.r * chanDiff a.r b.r + chanDiff a.g b.g * chanDiff a.g b.g + chanDiff a.b b.b * chanDiff a.b b.b

/-- The better of the best entry so far and the next one: strict, so a tie keeps the earlier (R133). -/
def closer (c : Rgb) (best e : PalEntry) : PalEntry := if dist c e.rgb < dist c best.rgb then e else best

/-- `nearest(c)` (R133). -/
def nearest (p : Palette) (c : Rgb) : PalEntry :=
  [⟨0x1, p.white⟩, ⟨0x2, p.yellow⟩, ⟨0x3, p.red⟩, ⟨0x5, p.blue⟩, ⟨0x6, p.green⟩].foldl (closer c) ⟨0x0, p.black⟩

/-- The offset of pixel (x, y) in a raster of width `w` (20_memory.md R67). -/
def pixOffset (w x y : Nat) : Nat := 3 * (y * w + x)

/-- `Pix(space, w, x, y)`: the triple at (x, y); `none` is an unwritten byte (R66, R67). -/
def readPix (m : Mem) (w x y : Nat) : Option Rgb :=
  match readByte m (pixOffset w x y), readByte m (pixOffset w x y + 1), readByte m (pixOffset w x y + 2) with
  | some r, some g, some b => some ⟨r, g, b⟩
  | _, _, _ => none

/-- `SetPix(space, w, x, y, p)` (R67). -/
def writePix (m : Mem) (w x y : Nat) (p : Rgb) : Mem :=
  writeByte (writeByte (writeByte m (pixOffset w x y) p.r) (pixOffset w x y + 1) p.g) (pixOffset w x y + 2) p.b

/-- IN_W, bits 15:0 of IN_DIM (10_state.md R25). -/
def inW (s : State) : Nat := (s.inDim.extractLsb' 0 16).toNat

/-- IN_H, bits 31:16 of IN_DIM (10_state.md R25). -/
def inH (s : State) : Nat := (s.inDim.extractLsb' 16 16).toNat

/-- A byte of two identifiers, the first in the high nibble (30_encoding.md R96). -/
def nibbles (hi lo : PalId) : Byte := hi ++ lo

/-- How a pixel command ends: at an unwritten byte (20_memory.md R66) it records UnwrittenRead, writes nothing and halts; else `k` has what it computed. -/
def orUnwritten {α : Type} (r : Option α) (s : State) (k : α → State) : Host.Outcome State Fault Refusal :=
  match r with
  | none => .next (haltCommand .unwrittenRead s)
  | some x => .next (k x)

end Sys2Proof.Machine
end

