-- ==== Sys2Proof/Machine/Flags.lean ====
section
/-! DEFINITION. The words the host reads: STATUS, LINES, RESULT and ID, bit by bit (10_state.md section 2), and the encodings of the session state and the error code. -/

namespace Sys2Proof.Machine

/-- The encoding of SESS in STATUS.STATE (45_session.md R250). -/
def sessCode : Sess → BitVec 3
  | .closed => 0
  | .opening => 1
  | .idle => 2
  | .busy => 3
  | .sleeping => 4
  | .failed => 5

/-- The encoding of STATUS.ERR (60_exceptions.md R301). -/
def errCode : Err → BitVec 4
  | .ok => 0
  | .dimensionMismatch => 1
  | .oddPixelCount => 2
  | .sizeMismatch => 3
  | .busError => 4
  | .deviceTimeout => 5
  | .illegalState => 6
  | .illegalCommand => 7

/-- A one-bit field. -/
def bit (b : Bool) : BitVec 1 := BitVec.ofBool b

/-- STATUS (10_state.md R23): LASTOP [23:16], OVR [8], ERR [7:4], STATE [3:1], RUN [0]. -/
def statusWord (s : State) : Word32 :=
  (0 : BitVec 8) ++ s.lastOp ++ (0 : BitVec 7) ++ bit s.ovr ++ errCode s.err ++ sessCode s.sess ++ bit s.run

/-- LINES (10_state.md R26): OWN [4], BUSY_RAW [3], PWR [2], DC [1], RST [0]. -/
def linesWord (s : State) : Word32 :=
  (0 : BitVec 27) ++ bit s.own ++ bit s.busyRaw ++ bit s.pwr ++ bit s.dc ++ bit s.rst

/-- ID (10_state.md R27): W [15:0], H [31:16]. -/
def idWord (c : Config) : Word32 := BitVec.ofNat 16 c.H ++ BitVec.ofNat 16 c.W

/-- RESULT for a palette entry (10_state.md R24): ID [27:24], R [23:16], G [15:8], B [7:0]. -/
def resultWord (e : PalEntry) : Word32 := (0 : BitVec 4) ++ e.id ++ e.rgb.r ++ e.rgb.g ++ e.rgb.b

end Sys2Proof.Machine
end

