-- ==== Sys2Proof/Machine/Dither.lean ====
section
/-! DEFINITION. DITHER_FS and DITHER_ATK (42_dither.md R160 to R172): one in-place pass over FRAME_RAM in row-major order. -/

namespace Sys2Proof.Machine

/-- A signed amount per channel (42_dither.md R161, R164). -/
structure Amount where
  r : Int
  g : Int
  b : Int
  deriving DecidableEq, Repr

/-- `trunc_div(a, b)`: division rounding toward zero (00_scope.md R8). -/
def truncDiv (a b : Int) : Int := Int.tdiv a b

/-- `floor_div(a, b)` (R8). -/
def floorDiv (a b : Int) : Int := Int.fdiv a b

/-- `clamp8(v)` (R8). -/
def clamp8 (v : Int) : Byte := BitVec.ofNat 8 (min 255 (max 0 v)).toNat

/-- The error of a visited pixel, `old - q` per channel (R164). -/
def pixelError (old q : Rgb) : Amount := ⟨chanDiff old.r q.r, chanDiff old.g q.g, chanDiff old.b q.b⟩

/-- `fsw(e, w)`, the weighted amount of one channel (R166). -/
def fsw (f : FsRound) (e w : Int) : Int :=
  match f with
  | .truncDiv => truncDiv (e * w) 16
  | .floorShift => floorDiv (e * w) 16
  | .roundNearest => truncDiv (e * w + 8 * Int.sign (e * w)) 16

/-- The Floyd–Steinberg amount of weight `w` (R165, R166). -/
def fsAmount (f : FsRound) (e : Amount) (w : Int) : Amount := ⟨fsw f e.r w, fsw f e.g w, fsw f e.b w⟩

/-- The Atkinson amount: an eighth, truncated toward zero (R169). -/
def atkAmount (e : Amount) : Amount := ⟨truncDiv e.r 8, truncDiv e.g 8, truncDiv e.b 8⟩

/-- The saturating add of R161, per channel. -/
def addSat (p : Rgb) (v : Amount) : Rgb :=
  ⟨clamp8 ((p.r.toNat : Int) + v.r), clamp8 ((p.g.toNat : Int) + v.g), clamp8 ((p.b.toNat : Int) + v.b)⟩

/-- One neighbour's contribution: where it goes and how much. -/
structure Share where
  x : Nat
  y : Nat
  v : Amount
  deriving DecidableEq, Repr

/-- Diffusion into the listed neighbours, in this order, clamped at every addition (R161). -/
def spread (w : Nat) : List Share → Mem → Option Mem
  | [], m => some m
  | n :: rest, m =>
    match readPix m w n.x n.y with
    | none => none
    | some p => spread w rest (writePix m w n.x n.y (addSat p n.v))

/-- `visit(x, y)` of R160: quantize the value held now, then diffuse `shares` of its error. -/
def visit (w : Nat) (p : Palette) (shares : Rgb → Rgb → List Share) (x y : Nat) (m : Mem) : Option Mem :=
  match readPix m w x y with
  | none => none
  | some old => spread w (shares old (nearest p old).rgb) (writePix m w x y (nearest p old).rgb)

/-- The pass of R160: `y` from 0 to `H-1`, and in each row `x` from 0 to `W-1`. -/
def ditherPass (c : Config) (p : Palette) (shares : Nat → Nat → Rgb → Rgb → List Share) (m : Mem) : Option Mem :=
  loop (fun y => loop (fun x => visit c.W p (shares x y) x y) c.W 0) c.H 0 m

/-- The Floyd–Steinberg shares of pixel (x, y): none for a border pixel (R162, R163), else right, down-left, down, down-right (R165). -/
def fsShares (c : Config) (x y : Nat) (old q : Rgb) : List Share :=
  if y + 1 < c.H ∧ 1 ≤ x ∧ x + 1 < c.W then
    [⟨x + 1, y, fsAmount c.fsRound (pixelError old q) 7⟩,
     ⟨x - 1, y + 1, fsAmount c.fsRound (pixelError old q) 3⟩,
     ⟨x, y + 1, fsAmount c.fsRound (pixelError old q) 5⟩,
     ⟨x + 1, y + 1, fsAmount c.fsRound (pixelError old q) 1⟩]
  else []

/-- The Atkinson down-left share; at `x = 0` the parameter `atk_west` decides (R171). -/
def atkWestShare (c : Config) (x y : Nat) (v : Amount) : List Share :=
  if x = 0 then
    match c.atkWest with
    | .discard => []
    | .rowWrap => [⟨c.W - 1, y, v⟩]
  else [⟨x - 1, y + 1, v⟩]

/-- The Atkinson shares of pixel (x, y): none for a border pixel (R168), else the six neighbours in the order of R170. -/
def atkShares (c : Config) (x y : Nat) (old q : Rgb) : List Share :=
  if y + 2 < c.H ∧ x + 2 < c.W then
    [⟨x + 1, y, atkAmount (pixelError old q)⟩, ⟨x + 2, y, atkAmount (pixelError old q)⟩]
      ++ atkWestShare c x y (atkAmount (pixelError old q))
      ++ [⟨x, y + 1, atkAmount (pixelError old q)⟩, ⟨x + 1, y + 1, atkAmount (pixelError old q)⟩,
          ⟨x, y + 2, atkAmount (pixelError old q)⟩]
  else []

/-- DITHER_FS (R167). -/
def ditherFsCmd (c : Config) (s : State) : Host.Outcome State Fault Refusal :=
  orUnwritten (ditherPass c s.palette (fsShares c) s.frameRam) s fun m => complete .ok { s with frameRam := m }

/-- DITHER_ATK (R172). -/
def ditherAtkCmd (c : Config) (s : State) : Host.Outcome State Fault Refusal :=
  orUnwritten (ditherPass c s.palette (atkShares c) s.frameRam) s fun m => complete .ok { s with frameRam := m }

/-- DITHER_FS on this hardware. -/
def execDitherFs (s : State) : Host.Outcome State Fault Refusal := ditherFsCmd Config.epd6 s

/-- DITHER_ATK on this hardware. -/
def execDitherAtk (s : State) : Host.Outcome State Fault Refusal := ditherAtkCmd Config.epd6 s

end Sys2Proof.Machine
end

