-- ==== Sys2Proof/Machine/Orient.lean ====
section
/-! DEFINITION. ORIENT (41_orient.md R150 to R153). -/

namespace Sys2Proof.Machine

/-- The classes of input dimensions (R150). -/
inductive Orientation where
  | landscape
  | portrait
  | mismatch
  deriving DecidableEq, Repr

/-- Classification of (IN_W, IN_H); a square frame is Landscape (R150). -/
def classify (c : Config) (iw ih : Nat) : Orientation :=
  if iw = c.W ∧ ih = c.H then .landscape
  else if iw = c.H ∧ ih = c.W then .portrait
  else .mismatch

/-- The input pixel that frame pixel (x, y) takes: itself, or column `H-1-y` of row `x` (R151, R152). -/
def sourcePix (c : Config) (o : Orientation) (inRam : Mem) (x y : Nat) : Option Rgb :=
  match o with
  | .portrait => readPix inRam c.H (c.H - 1 - y) x
  | _ => readPix inRam c.W x y

/-- One frame pixel of the copy. -/
def orientPixel (c : Config) (o : Orientation) (inRam : Mem) (y x : Nat) (frame : Mem) : Option Mem :=
  match sourcePix c o inRam x y with
  | none => none
  | some p => some (writePix frame c.W x y p)

/-- The loops of R153: `y` from 0 to `H-1`, and in each row `x` from 0 to `W-1`. -/
def orientFrame (c : Config) (o : Orientation) (inRam : Mem) (frame : Mem) : Option Mem :=
  loop (fun y m => loop (orientPixel c o inRam y) c.W 0 m) c.H 0 frame

/-- ORIENT (R153): the dimension check comes before any access. -/
def orientCmd (c : Config) (s : State) : Host.Outcome State Fault Refusal :=
  if classify c (inW s) (inH s) = .mismatch then .next (complete .dimensionMismatch s)
  else orUnwritten (orientFrame c (classify c (inW s) (inH s)) s.inRam s.frameRam) s
    fun m => complete .ok { s with frameRam := m }

/-- ORIENT on this hardware. -/
def execOrient (s : State) : Host.Outcome State Fault Refusal := orientCmd Config.epd6 s

end Sys2Proof.Machine
end

