-- ==== Sys2Proof/Machine/Packer.lean ====
section
/-! DEFINITION. PACK (43_packer.md R190 to R192), and the test function `unpack` (R194). -/

namespace Sys2Proof.Machine

/-- The identifier of a pixel (R190). -/
def pid (p : Palette) (c : Rgb) : PalId := (nearest p c).id

/-- The frame pixel of flattened index `i` (R192, 00_scope.md R10). -/
def flatPix (c : Config) (frame : Mem) (i : Nat) : Option Rgb := readPix frame c.W (i % c.W) (i / c.W)

/-- Packed byte `k` (R191, R192). -/
def packByte (c : Config) (p : Palette) (frame : Mem) (k : Nat) (out : Mem) : Option Mem :=
  match flatPix c frame (2 * k), flatPix c frame (2 * k + 1) with
  | some a, some b => some (writeByte out k (nibbles (pid p a) (pid p b)))
  | _, _ => none

/-- PACK (R192): the pixel count is checked before any access. -/
def packCmd (c : Config) (s : State) : Host.Outcome State Fault Refusal :=
  if c.W * c.H % 2 = 1 then .next (complete .oddPixelCount s)
  else orUnwritten (loop (packByte c s.palette s.frameRam) (packSize c) 0 s.packRam) s
    fun m => complete .ok { s with packRam := m }

/-- PACK on this hardware. -/
def execPack (s : State) : Host.Outcome State Fault Refusal := packCmd Config.epd6 s

/-- The two identifiers of a byte (R194). -/
def unpackByte (b : Byte) : List PalId := [b.extractLsb' 4 4, b.extractLsb' 0 4]

/-- `unpack(buf)` (R194). -/
def unpack (buf : List Byte) : List PalId := buf.flatMap unpackByte

end Sys2Proof.Machine
end

