-- ==== Sys2Proof/Machine/Panel.lean ====
section
/-! DEFINITION. The eighteen panel command bytes (44_panel_protocol.md R212 to R230), each an instruction of the sequencer: `SendCmd` of the byte, then its payload, then its busy-wait where it has one. A meaning emits the first event of its register write, `Set(DC, 0)`, and leaves the others at the head of the script, since a step is one event (10_state.md R34; DESIGN CHOICE, safe: log entry 18). -/

namespace Sys2Proof.Machine

/-- The events of `SendData` for each byte (R207, R208). -/
def dataOps (payload : List Byte) : List Op := payload.flatMap fun d => [.set .dc true, .xfer d]

/-- `WriteReg(b, payload)` and then `after` (R206 to R208), for the instruction at the script's head. -/
def writeReg (c : Config) (b : Byte) (payload : List Byte) (after : List Op) (s : State) : State :=
  setLine c .dc false { s with script := .xfer b :: (dataOps payload ++ after ++ s.script.tail) }

/-- A register write of the init sequence or of the booster: `init_payload`, no busy-wait (R212 to R224). -/
def initWrite (c : Config) (b : Byte) (s : State) : Host.Outcome State Fault Refusal :=
  .next (writeReg c b (c.initPayload b) [] s)

/-- A register write followed at once by `BusyWait()`: `extra_payload` (R225, R227, R228). -/
def busyWrite (c : Config) (b : Byte) (s : State) : Host.Outcome State Fault Refusal :=
  .next (writeReg c b (c.extraPayload b) [.busyWait 0] s)

/-- `n` fill bytes still to send; none is no operation. -/
def fillOps (b : Byte) (n : Nat) : List Op := if n = 0 then [] else [.fill b n]

/-- `n` bytes of PACK_RAM from `k` on still to send; none is no operation. -/
def streamOps (k n : Nat) : List Op := if n = 0 then [] else [.stream k n]

/-- The data bytes after 0x10 in a command: CLEAR's fill byte or DISPLAY's packed buffer, `W/2*H` of them (R226); no other command sends 0x10. -/
def commandPayload (c : Config) : Instr → List Op
  | .nearest _ _ _ => []
  | .orient => []
  | .ditherFs => []
  | .ditherAtk => []
  | .pack => []
  | .openSession => []
  | .clear id => fillOps (nibbles id id) (streamSize c)
  | .display len => streamOps 0 len.toNat
  | .closeSession => []
  | .panelCmdh => []
  | .panelPanelSetting => []
  | .panelDriverOutput => []
  | .panelResSetting => []
  | .panelBoosterSoftStart1 => []
  | .panelBoosterSoftStart2 => []
  | .panelBoosterSoftStart3 => []
  | .panelPll => []
  | .panelVcom => []
  | .panelTcon => []
  | .panelResolution => []
  | .panelTse => []
  | .panelPowerSaving => []
  | .panelPowerOn => []
  | .panelWriteRam => []
  | .panelDisplayRefresh => []
  | .panelPowerOff => []
  | .panelDeepSleep => []

/-- The data bytes after 0x10, of the command in progress (R226); none in another command (DESIGN CHOICE, safe: log entry 29). -/
def ramPayload (c : Config) (cmd : Option Instr) : List Op :=
  match cmd with
  | none => []
  | some i => commandPayload c i

/-- 0x10 (R226): `SendCmd(0x10)`, then the data bytes of the command in progress, no busy-wait. -/
def writeRam (c : Config) (s : State) : Host.Outcome State Fault Refusal :=
  .next (writeReg c 0x10 [] (ramPayload c s.cmd) s)

/-- 0x07 (R230): `WriteReg(0x07, [0xA5])`, nothing after it. -/
def deepSleep (c : Config) (s : State) : Host.Outcome State Fault Refusal :=
  .next (writeReg c 0x07 [0xA5] [] s)

/-- 0xAA (R212). -/
def execPanelCmdh (s : State) : Host.Outcome State Fault Refusal := initWrite Config.epd6 0xAA s

/-- 0x01 (R213). -/
def execPanelPanelSetting (s : State) : Host.Outcome State Fault Refusal := initWrite Config.epd6 0x01 s

/-- 0x00 (R214). -/
def execPanelDriverOutput (s : State) : Host.Outcome State Fault Refusal := initWrite Config.epd6 0x00 s

/-- 0x03 (R215). -/
def execPanelResSetting (s : State) : Host.Outcome State Fault Refusal := initWrite Config.epd6 0x03 s

/-- 0x05 (R216). -/
def execPanelBoosterSoftStart1 (s : State) : Host.Outcome State Fault Refusal := initWrite Config.epd6 0x05 s

/-- 0x06 (R217). -/
def execPanelBoosterSoftStart2 (s : State) : Host.Outcome State Fault Refusal := initWrite Config.epd6 0x06 s

/-- 0x08 (R218). -/
def execPanelBoosterSoftStart3 (s : State) : Host.Outcome State Fault Refusal := initWrite Config.epd6 0x08 s

/-- 0x30 (R219). -/
def execPanelPll (s : State) : Host.Outcome State Fault Refusal := initWrite Config.epd6 0x30 s

/-- 0x50 (R220). -/
def execPanelVcom (s : State) : Host.Outcome State Fault Refusal := initWrite Config.epd6 0x50 s

/-- 0x60 (R221). -/
def execPanelTcon (s : State) : Host.Outcome State Fault Refusal := initWrite Config.epd6 0x60 s

/-- 0x61 (R222). -/
def execPanelResolution (s : State) : Host.Outcome State Fault Refusal := initWrite Config.epd6 0x61 s

/-- 0x84 (R223). -/
def execPanelTse (s : State) : Host.Outcome State Fault Refusal := initWrite Config.epd6 0x84 s

/-- 0xE3 (R224). -/
def execPanelPowerSaving (s : State) : Host.Outcome State Fault Refusal := initWrite Config.epd6 0xE3 s

/-- 0x04 (R225). -/
def execPanelPowerOn (s : State) : Host.Outcome State Fault Refusal := busyWrite Config.epd6 0x04 s

/-- 0x10 (R226). -/
def execPanelWriteRam (s : State) : Host.Outcome State Fault Refusal := writeRam Config.epd6 s

/-- 0x12 (R227). -/
def execPanelDisplayRefresh (s : State) : Host.Outcome State Fault Refusal := busyWrite Config.epd6 0x12 s

/-- 0x02 (R228). -/
def execPanelPowerOff (s : State) : Host.Outcome State Fault Refusal := busyWrite Config.epd6 0x02 s

/-- 0x07 (R230). -/
def execPanelDeepSleep (s : State) : Host.Outcome State Fault Refusal := deepSleep Config.epd6 s

end Sys2Proof.Machine
end

