-- ==== Sys2Proof/Machine/Quantizer.lean ====
section
/-! DEFINITION. NEAREST (40_quantizer.md R134). -/

namespace Sys2Proof.Machine

/-- NEAREST r g b: RESULT gets the nearest entry; no error; every other part of the state is untouched (R134). -/
def nearestCmd (r g b : Byte) (s : State) : Host.Outcome State Fault Refusal :=
  .next (complete .ok { s with result := resultWord (nearest s.palette ⟨r, g, b⟩) })

/-- NEAREST on this hardware. -/
def execNearest (r g b : Byte) (s : State) : Host.Outcome State Fault Refusal := nearestCmd r g b s

end Sys2Proof.Machine
end

