-- ==== Sys2Proof/Machine/Session.lean ====
section
/-! DEFINITION. The session commands OPEN, CLEAR, DISPLAY and CLOSE (45_session.md R260 to R263): their checks, the session state they enter and the script of events they leave to the sequencer. -/

namespace Sys2Proof.Machine

/-- The panel command byte `b` as the script's next instruction. -/
def panelOp (b : Byte) : Op := .instr (.panel b)

/-- `ResetSeq()` (44_panel_protocol.md R210). -/
def resetSeq (c : Config) : List Op :=
  [.set .rst true, .hold c.resetHoldMs, .set .rst false, .hold c.resetHoldMs, .set .rst true, .hold c.resetHoldMs]

/-- The thirteen init command bytes, in sending order (R231). -/
def initBytes : List Byte :=
  [0xAA, 0x01, 0x00, 0x03, 0x05, 0x06, 0x08, 0x30, 0x50, 0x60, 0x61, 0x84, 0xE3]

/-- `InitSeq()` (R231); the busy-wait belongs to 0x04. -/
def initSeq : List Op := initBytes.map panelOp ++ [panelOp 0x04]

/-- `TurnOn()` (R229); the busy-waits belong to 0x04, 0x12 and 0x02. -/
def turnOn (c : Config) : List Op :=
  [panelOp 0x04] ++ c.turnonBooster.map panelOp ++ [panelOp 0x12, panelOp 0x02]

/-- OPEN's script after `SESS <- OPENING` (R260). -/
def openScript (c : Config) : List Op :=
  [.acq, .set .pwr true] ++ resetSeq c ++ [.busyWait 0] ++ initSeq ++ [.finish .idle .ok]

/-- The script of CLEAR and DISPLAY after `SESS <- BUSY` (R261, R262); the data bytes belong to 0x10 (44_panel_protocol.md R226). -/
def refreshScript (c : Config) : List Op :=
  [panelOp 0x10] ++ turnOn c ++ [.finish .idle .ok]

/-- CLOSE's script from IDLE after `SESS <- BUSY` (R263). -/
def closeScript : List Op :=
  [panelOp 0x02, panelOp 0x07, .sess .sleeping] ++ releaseTail ++ [.finish .closed .ok]

/-- A session command begins: the session state it enters and its script. -/
def startCommand (i : Instr) (x : Sess) (script : List Op) (s : State) : State :=
  { s with sess := x, cmd := some i, script := script }

/-- OPEN (R260). -/
def openCmd (c : Config) (s : State) : Host.Outcome State Fault Refusal :=
  if s.sess = .closed then .next (startCommand .openSession .opening (openScript c) s)
  else .next (complete .illegalState s)

/-- CLEAR id (R261): the state, then the identifier. -/
def clearCmd (c : Config) (id : PalId) (s : State) : Host.Outcome State Fault Refusal :=
  if s.sess = .idle then
    if id ∈ paletteIds then .next (startCommand (.clear id) .busy (refreshScript c) s)
    else .next (complete .illegalCommand s)
  else .next (complete .illegalState s)

/-- DISPLAY len (R262): the state, then the length. -/
def displayCmd (c : Config) (len : BitVec 24) (s : State) : Host.Outcome State Fault Refusal :=
  if s.sess = .idle then
    if len.toNat = streamSize c then .next (startCommand (.display len) .busy (refreshScript c) s)
    else .next (complete .sizeMismatch s)
  else .next (complete .illegalState s)

/-- CLOSE (R263). -/
def closeCmd (s : State) : Host.Outcome State Fault Refusal :=
  match s.sess with
  | .closed => .next (complete .ok s)
  | .failed =>
    if s.own then .next (startCommand .closeSession .failed (releaseTail ++ [.finish .closed .ok]) s)
    else .next (finish .closed .ok { s with rst := false, dc := false, pwr := false })
  | .idle => .next (startCommand .closeSession .busy closeScript s)
  | .opening => .fault .closeInFlight
  | .busy => .fault .closeInFlight
  | .sleeping => .fault .closeInFlight

/-- OPEN on this hardware. -/
def execOpenSession (s : State) : Host.Outcome State Fault Refusal := openCmd Config.epd6 s

/-- CLEAR on this hardware. -/
def execClear (id : PalId) (s : State) : Host.Outcome State Fault Refusal := clearCmd Config.epd6 id s

/-- DISPLAY on this hardware. -/
def execDisplay (len : BitVec 24) (s : State) : Host.Outcome State Fault Refusal := displayCmd Config.epd6 len s

/-- CLOSE on this hardware. -/
def execCloseSession (s : State) : Host.Outcome State Fault Refusal := closeCmd s

end Sys2Proof.Machine
end

