-- ==== Sys2Proof/Machine/Dispatch.lean ====
section
/-! DEFINITION. One arm per instruction: the call of its meaning on this hardware. -/

namespace Sys2Proof.Machine

def exec (i : Instr) (s : State) : Host.Outcome State Fault Refusal :=
  match i with
  | .nearest r g b => Sys2Proof.Machine.execNearest r g b s
  | .orient => Sys2Proof.Machine.execOrient s
  | .ditherFs => Sys2Proof.Machine.execDitherFs s
  | .ditherAtk => Sys2Proof.Machine.execDitherAtk s
  | .pack => Sys2Proof.Machine.execPack s
  | .openSession => Sys2Proof.Machine.execOpenSession s
  | .clear id => Sys2Proof.Machine.execClear id s
  | .display len => Sys2Proof.Machine.execDisplay len s
  | .closeSession => Sys2Proof.Machine.execCloseSession s
  | .panelCmdh => Sys2Proof.Machine.execPanelCmdh s
  | .panelPanelSetting => Sys2Proof.Machine.execPanelPanelSetting s
  | .panelDriverOutput => Sys2Proof.Machine.execPanelDriverOutput s
  | .panelResSetting => Sys2Proof.Machine.execPanelResSetting s
  | .panelBoosterSoftStart1 => Sys2Proof.Machine.execPanelBoosterSoftStart1 s
  | .panelBoosterSoftStart2 => Sys2Proof.Machine.execPanelBoosterSoftStart2 s
  | .panelBoosterSoftStart3 => Sys2Proof.Machine.execPanelBoosterSoftStart3 s
  | .panelPll => Sys2Proof.Machine.execPanelPll s
  | .panelVcom => Sys2Proof.Machine.execPanelVcom s
  | .panelTcon => Sys2Proof.Machine.execPanelTcon s
  | .panelResolution => Sys2Proof.Machine.execPanelResolution s
  | .panelTse => Sys2Proof.Machine.execPanelTse s
  | .panelPowerSaving => Sys2Proof.Machine.execPanelPowerSaving s
  | .panelPowerOn => Sys2Proof.Machine.execPanelPowerOn s
  | .panelWriteRam => Sys2Proof.Machine.execPanelWriteRam s
  | .panelDisplayRefresh => Sys2Proof.Machine.execPanelDisplayRefresh s
  | .panelPowerOff => Sys2Proof.Machine.execPanelPowerOff s
  | .panelDeepSleep => Sys2Proof.Machine.execPanelDeepSleep s

end Sys2Proof.Machine
end

