-- ==== Sys2Proof/Machine/HostPort.lean ====
section
/-! DEFINITION. The host port (20_memory.md R60 to R78): the address map, register reads and writes, memory accesses, and the model faults a wrong access records. -/

namespace Sys2Proof.Machine

/-- The four windows of the address map (R61). -/
inductive Window where
  | regs
  | inRam
  | frameRam
  | packRam
  deriving DecidableEq, Repr

/-- The window of a host address: 4 MiB each (R61). -/
def windowOf (a : BitVec 24) : Window :=
  if a.toNat < 0x400000 then .regs
  else if a.toNat < 0x800000 then .inRam
  else if a.toNat < 0xC00000 then .frameRam
  else .packRam

/-- The byte offset inside the window (R61). -/
def offsetOf (a : BitVec 24) : Nat := a.toNat % 0x400000

/-- How many bytes an access moves (R64). -/
def widthBytes : Width → Nat
  | .w8 => 1
  | .w16 => 2
  | .w32 => 4

/-- The size of the memory in a window (10_state.md R30); the register window is no memory. -/
def windowSize (c : Config) : Window → Nat
  | .regs => 0
  | .inRam => frameSize c
  | .frameRam => frameSize c
  | .packRam => packSize c

/-- The memory in a window. -/
def windowMem (s : State) : Window → Mem
  | .regs => []
  | .inRam => s.inRam
  | .frameRam => s.frameRam
  | .packRam => s.packRam

/-- Replace the memory in a window. -/
def setWindowMem (w : Window) (m : Mem) (s : State) : State :=
  match w with
  | .regs => s
  | .inRam => { s with inRam := m }
  | .frameRam => { s with frameRam := m }
  | .packRam => { s with packRam := m }

/-- Whether an access is aligned (R65). -/
def aligned (w : Width) (a : BitVec 24) : Bool := decide (a.toNat % widthBytes w = 0)

/-- Whether the access is one R65 and R69 allow: aligned, 32 bits in the register window, and inside the memory in a memory window, all its bytes (DEDUCED, safe: log entry 24). -/
def accessOk (c : Config) (w : Width) (a : BitVec 24) : Bool :=
  aligned w a &&
    match windowOf a with
    | .regs => decide (w = .w32)
    | x => decide (offsetOf a + widthBytes w ≤ windowSize c x)

/-- `n` bytes from offset `a` on, little-endian (R62, R64); `none` is an unwritten byte. -/
def readLE (m : Mem) (a : Nat) : Nat → Option Nat
  | 0 => some 0
  | n + 1 =>
    match readByte m a, readLE m (a + 1) n with
    | some b, some v => some (b.toNat + 256 * v)
    | _, _ => none

/-- The low `n` bytes of `v` at offsets `a`, `a+1`, ..., little-endian (R62, R64). -/
def writeLE (m : Mem) (a : Nat) (v : Nat) : Nat → Mem
  | 0 => m
  | n + 1 => writeLE (writeByte m a (BitVec.ofNat 8 v)) (a + 1) (v / 256) n

/-- A register read (10_state.md R22 to R28): CMD and reserved offsets read 0. -/
def readReg (c : Config) (s : State) (off : Nat) : Word32 :=
  if off = 0x004 then statusWord s
  else if off = 0x008 then s.result
  else if off = 0x00C then s.inDim
  else if off = 0x010 then linesWord s
  else if off = 0x014 then idWord c
  else 0

/-- A register write (10_state.md R22 to R28, 60_exceptions.md R320): read-only offsets (DEDUCED, unsafe: log entry 12) and reserved ones ignore it. -/
def writeReg32 (off : Nat) (v : Word32) (s : State) : State :=
  if off = 0x000 then
    if s.run then { s with ovr := true } else accept v s
  else if off = 0x004 then
    if v.getLsbD 8 then { s with ovr := false } else s
  else if off = 0x00C then
    if s.run then { s with ovr := true } else { s with inDim := v }
  else s

/-- The value of a host read goes to `reads`. -/
def answer (v : Word32) (s : State) : State := { s with reads := v :: s.reads }

/-- A host read (R64, R65, R69, R78; 10_state.md R31); a faulted one returns no value (60_exceptions.md R309). Register reads are allowed while RUN = 1 (DEDUCED, unsafe: log entry 13); the order of the faults is the model's (DEDUCED, safe: log entry 14); a narrow value is zero-extended (DEDUCED, safe: log entry 21). -/
def hostRead (c : Config) (w : Width) (a : BitVec 24) (s : State) : State :=
  if accessOk c w a then
    match windowOf a with
    | .regs => answer (readReg c s (offsetOf a)) s
    | x =>
      if s.run then haltCommand .hostHazard s
      else
        match readLE (windowMem s x) (offsetOf a) (widthBytes w) with
        | none => addFault .unwrittenRead s
        | some v => answer (BitVec.ofNat 32 v) s
  else addFault .hostAccess s

/-- A host write (R64, R65, R69, R78); a faulted one has no effect (60_exceptions.md R309). -/
def hostWrite (c : Config) (w : Width) (a : BitVec 24) (v : Word32) (s : State) : State :=
  if accessOk c w a then
    match windowOf a with
    | .regs => writeReg32 (offsetOf a) v s
    | x =>
      if s.run then haltCommand .hostHazard s
      else setWindowMem x (writeLE (windowMem s x) (offsetOf a) v.toNat (widthBytes w)) s
  else addFault .hostAccess s

end Sys2Proof.Machine
end

