-- ==== Sys2Proof/Machine/Sequencer.lean ====
section
/-! DEFINITION. One step: the host's turn, the fetch of the sequencer's next instruction, and the operations of a command's script, one event a step (10_state.md R34). The meaning of an instruction is an argument, so that the same text steps the hardware and a reduced instance. -/

namespace Sys2Proof.Machine

/-- A meaning of every instruction. -/
abbrev Exec := Instr → State → Host.Outcome State Fault Refusal

/-- `SendData(b)` begins: `Set(DC, 1)`, with `Xfer(b)` and then `after` left in the script (44_panel_protocol.md R207). -/
def sendData (c : Config) (b : Byte) (after : List Op) (s : State) : State :=
  setLine c .dc true { s with script := .xfer b :: (after ++ s.script) }

/-- One operation of the script, already taken off it (DESIGN CHOICE, safe: log entry 2). A streamed byte is read before its first event (DEDUCED, safe: log entry 20). -/
def microStep (c : Config) (op : Op) (s : State) : State :=
  match op with
  | .instr _ => s
  | .acq => acquire c s
  | .set l v => setLine c l v s
  | .xfer b => transfer c b s
  | .hold t => holdFor c t s
  | .busyWait k => pollBusy c k s
  | .pollHold k => holdFor c c.pollMs { s with script := .busyWait (k + 1) :: s.script }
  | .fill _ 0 => s
  | .fill b (n + 1) => sendData c b (fillOps b n) s
  | .stream _ 0 => s
  | .stream k (n + 1) =>
    match readByte s.packRam k with
    | none => haltCommand .unwrittenRead s
    | some b => sendData c b (streamOps (k + 1) n) s
  | .sess x => { s with sess := x }
  | .relSet l => driveLine c l false s
  | .rel => release s
  | .finish x e => finish x e s
  | .halted => { s with script := .halted :: s.script }

/-- The core's step: nothing while RUN = 0; else fetch and execute the instruction at the script's head (30_encoding.md R103, a word that does not decode being IllegalCommand, 60_exceptions.md R308), or do the operation there. RUN = 0, and an empty script, change nothing (DESIGN CHOICE, safe: log entries 27, 28). -/
def coreStep (c : Config) (ex : Exec) (s : State) : Host.Outcome State Fault Refusal :=
  if s.run then
    match s.script with
    | [] => .next s
    | .instr (.cmd w) :: _ =>
      match decodeCommand w with
      | .ok i => ex i s
      | .error _ => .next (complete .illegalCommand s)
    | .instr (.panel b) :: _ =>
      match decodePanel b with
      | .ok i => ex i s
      | .error _ => .refused (.unknownPanelByte b)
    | op :: rest => .next (microStep c op { s with script := rest })
  else .next s

/-- What an action of the host or the platform does, the action already taken off `hostQ`. `WAIT` stays there until RUN reads 0 (30_encoding.md R101; DESIGN CHOICE, safe: log entry 30). -/
def hostTurn (c : Config) (ex : Exec) (a : HostAct) (s : State) : Host.Outcome State Fault Refusal :=
  match a with
  | .rd w addr => .next (hostRead c w addr s)
  | .wr w addr v => .next (hostWrite c w addr v s)
  | .pass => coreStep c ex s
  | .wait => if s.run then coreStep c ex { s with hostQ := .wait :: s.hostQ } else .next s
  | .reset => .next (coreReset c s)

/-- One step of the machine: `hostQ` says who moves. -/
def stepWith (c : Config) (ex : Exec) (s : State) : Host.Outcome State Fault Refusal :=
  match s.hostQ with
  | [] => coreStep c ex s
  | a :: q => hostTurn c ex a { s with hostQ := q }

/-- The command during which the spec sends a panel byte first: the payload of 0x10 and the abort rule depend on it. -/
def panelContext (b : Byte) : Instr :=
  if b = 0x10 ∨ b = 0x12 then .clear 0
  else if b = 0x02 ∨ b = 0x07 then .closeSession
  else .openSession

/-- A core with the panel byte `b` as its script's next instruction (DESIGN CHOICE, safe: log entry 19). -/
def loadPanelByte (b : Byte) (s : State) : State :=
  { s with run := true, cmd := some (panelContext b), script := [.instr (.panel b), .finish s.sess .ok] }

/-- The host lets the core make the next step. -/
def coreFirst (s : State) : State :=
  match s.hostQ with
  | [] => s
  | q => { s with hostQ := .pass :: q }

/-- The code placed where the sequencer fetches: a command word is accepted as CMD accepts it, a panel byte heads the script. -/
def loadCode (k : Code) (s : State) : State :=
  match k with
  | .cmd w => coreFirst (accept w s)
  | .panel b => coreFirst (loadPanelByte b s)

end Sys2Proof.Machine
end

