-- ==== Sys2Proof/Machine/Step.lean ====
section
/-! DEFINITION. One step of this hardware, and the placing of an instruction where the next step fetches it. -/

namespace Sys2Proof.Machine

/-- One step of the EPD6 CORE: next, fault or refusal. -/
def step (s : State) : Host.Outcome State Fault Refusal := stepWith Config.epd6 exec s

/-- `s` with the instruction of `nbits` bits `w` where the very next step fetches its instruction; a length the table does not have changes nothing. -/
def State.withFetchWord (s : State) (nbits w : Nat) : State :=
  match tableCode nbits w with
  | none => s
  | some k => loadCode k s

end Sys2Proof.Machine
end

