-- ==== Sys2Proof/Machine/Generic.lean ====
section
/-! DEFINITION. The meaning of every instruction under any parameters `c` (00_scope.md R6): for a reduced instance and for an environment given in full; and runs of several steps. -/

namespace Sys2Proof.Machine

/-- The meaning of every instruction under the parameters `c`. -/
def execWith (c : Config) : Exec
  | .nearest r g b => nearestCmd r g b
  | .orient => orientCmd c
  | .ditherFs => ditherFsCmd c
  | .ditherAtk => ditherAtkCmd c
  | .pack => packCmd c
  | .openSession => openCmd c
  | .clear id => clearCmd c id
  | .display len => displayCmd c len
  | .closeSession => closeCmd
  | .panelCmdh => initWrite c 0xAA
  | .panelPanelSetting => initWrite c 0x01
  | .panelDriverOutput => initWrite c 0x00
  | .panelResSetting => initWrite c 0x03
  | .panelBoosterSoftStart1 => initWrite c 0x05
  | .panelBoosterSoftStart2 => initWrite c 0x06
  | .panelBoosterSoftStart3 => initWrite c 0x08
  | .panelPll => initWrite c 0x30
  | .panelVcom => initWrite c 0x50
  | .panelTcon => initWrite c 0x60
  | .panelResolution => initWrite c 0x61
  | .panelTse => initWrite c 0x84
  | .panelPowerSaving => initWrite c 0xE3
  | .panelPowerOn => busyWrite c 0x04
  | .panelWriteRam => writeRam c
  | .panelDisplayRefresh => busyWrite c 0x12
  | .panelPowerOff => busyWrite c 0x02
  | .panelDeepSleep => deepSleep c

/-- Up to `n` steps of `f`, stopping at the first fault or refusal. -/
def runSteps (f : State → Host.Outcome State Fault Refusal) : Nat → State → Host.Outcome State Fault Refusal
  | 0, s => .next s
  | n + 1, s =>
    match f s with
    | .next t => runSteps f n t
    | o => o

/-- Up to `n` steps of the core under the parameters `c`. -/
def runWith (c : Config) (n : Nat) (s : State) : Host.Outcome State Fault Refusal :=
  runSteps (stepWith c (execWith c)) n s

end Sys2Proof.Machine
end

