-- ==== Sys2Proof/Machine/Wire.lean ====
section
/-! DEFINITION. Views of the trace and of the host's programs: the wire projection (44_panel_protocol.md R200), the register writes on the bus (30_encoding.md R99), the bits of a transfer (R205), and the spec's assembler (30_encoding.md R100, R101). -/

namespace Sys2Proof.Machine

/-- The wire projection: every `Set(DC, v)` dropped, every `Xfer` kept with its DC level (R200). -/
def wire (tr : List Event) : List Event :=
  tr.filter fun e =>
    match e with
    | .set .dc _ _ => false
    | _ => true

/-- The bytes on the bus, each with its DC level, in the order of the list. -/
def busBytes (tr : List Event) : List (Bool × Byte) :=
  tr.filterMap fun e =>
    match e with
    | .xfer dc b _ => some (dc, b)
    | _ => none

/-- The register writes of a byte stream, cut before every byte sent with DC = 0 (30_encoding.md R99); data bytes before the first command byte belong to none. -/
def registerWrites : List (Bool × Byte) → List (Byte × List Byte)
  | [] => []
  | (false, b) :: rest => (b, (rest.takeWhile Prod.fst).map Prod.snd) :: registerWrites rest
  | (true, _) :: rest => registerWrites rest

/-- The eight bits of a transfer, most significant first (20_memory.md R63, 44_panel_protocol.md R205). -/
def wireBits (b : Byte) : List Bool := (List.range 8).map fun i => b.getLsbD (7 - i)

/-- What one transfer does on the bus: chip select asserted, eight bits, chip select released (R205; DEDUCED, safe: log entry 26). -/
inductive BusPhase where
  | select
  | clock (bit : Bool)
  | deselect
  deriving DecidableEq, Repr

/-- The phases of `Xfer(b)` (R205). -/
def transferPhases (b : Byte) : List BusPhase := .select :: (wireBits b).map .clock ++ [.deselect]

/-! ### The assembler (30_encoding.md R100, R101) -/

/-- The host-port address of offset `o` in IN_RAM, FRAME_RAM and PACK_RAM. -/
def inAddr (o : Nat) : BitVec 24 := BitVec.ofNat 24 (0x400000 + o)

/-- `FRAME+o`. -/
def frameAddr (o : Nat) : BitVec 24 := BitVec.ofNat 24 (0x800000 + o)

/-- `PACK+o`. -/
def packAddr (o : Nat) : BitVec 24 := BitVec.ofNat 24 (0xC00000 + o)

/-- A command mnemonic: its word written to CMD. A panel command byte is no host command. -/
def asmCommand (i : Instr) : List HostAct :=
  match encode i with
  | .cmd w => [.wr .w32 0x000 w]
  | .panel _ => []

/-- A command mnemonic with `!`: the write, then `WAIT`. -/
def asmCommandWait (i : Instr) : List HostAct := asmCommand i ++ [.wait]

/-- `FILLPIX space, w, x, y, r, g, b`: three byte writes, `addr` being the space's window. -/
def asmFillPix (addr : Nat → BitVec 24) (w x y : Nat) (p : Rgb) : List HostAct :=
  [.wr .w8 (addr (pixOffset w x y)) (p.r.zeroExtend 32), .wr .w8 (addr (pixOffset w x y + 1)) (p.g.zeroExtend 32),
   .wr .w8 (addr (pixOffset w x y + 2)) (p.b.zeroExtend 32)]

end Sys2Proof.Machine
end

