-- ==== Sys2Proof/Safety.lean ====
section
/-! DEFINITION. The terms claims are stated in: the invariant of the machine, the raster-level reading of the frame commands, and the event lists the session commands send when every outcome is `ok`. -/

namespace Sys2Proof.Machine

/-! ### The session invariant (45_session.md R250, R251) -/

/-- A session state that can stand while RUN = 0 (R251). -/
abbrev Settled (x : Sess) : Prop := x = .closed ∨ x = .idle ∨ x = .failed

/-- The transitions of R251. -/
def sessMoves : List (Sess × Sess) :=
  [(.closed, .opening), (.opening, .idle), (.opening, .failed), (.idle, .busy), (.busy, .idle), (.busy, .failed),
   (.busy, .sleeping), (.busy, .closed), (.sleeping, .closed), (.failed, .closed)]

/-- The session state in which a BusError or DeviceTimeout can end the command: OPENING in OPEN, BUSY in the others (R260 to R263). -/
def abortState : Instr → Option Sess
  | .nearest _ _ _ => none
  | .orient => none
  | .ditherFs => none
  | .ditherAtk => none
  | .pack => none
  | .openSession => some .opening
  | .clear _ => some .busy
  | .display _ => some .busy
  | .closeSession => some .busy
  | .panelCmdh => none
  | .panelPanelSetting => none
  | .panelDriverOutput => none
  | .panelResSetting => none
  | .panelBoosterSoftStart1 => none
  | .panelBoosterSoftStart2 => none
  | .panelBoosterSoftStart3 => none
  | .panelPll => none
  | .panelVcom => none
  | .panelTcon => none
  | .panelResolution => none
  | .panelTse => none
  | .panelPowerSaving => none
  | .panelPowerOn => none
  | .panelWriteRam => none
  | .panelDisplayRefresh => none
  | .panelPowerOff => none
  | .panelDeepSleep => none

/-- Whether an event that can fail may stand in the script: a command that can abort is in progress, in the state it aborts from. -/
def mayAbort (cmd : Option Instr) (x : Sess) : Bool := decide (cmd.bind abortState = some x)

/-- Whether the lines are owned as a completion in state `x` requires: not in CLOSED, and in IDLE (R250, 44_panel_protocol.md R203). -/
def ownFits (x : Sess) (own : Bool) : Bool :=
  match x with
  | .closed => !own
  | .idle => own
  | _ => true

/-- A script that keeps the rules from a point where SESS is `x`, DC is `dc` and OWN is `own`: only the panel command bytes are sent with DC = 0 (30_encoding.md R104), events that can fail stand only where the command may abort, `Acq` only in OPEN, poll counts stay within `n_poll`, session states follow R251, and the script ends in a completion. A `false` for `dc` also covers a DC level not known. -/
def planOk (c : Config) (cmd : Option Instr) : Sess → Bool → Bool → List Op → Bool
  | _, _, _, [] => false
  | x, _, own, .finish y _ :: rest =>
    rest.isEmpty && decide ((x, y) ∈ sessMoves) && decide (Settled y) && ownFits y own
  | x, dc, own, .sess y :: rest => decide ((x, y) ∈ sessMoves) && planOk c cmd y dc own rest
  | _, _, _, .instr (.cmd _) :: _ => false
  | x, _, own, .instr (.panel b) :: rest =>
    decide (b ∈ panelBytes) && mayAbort cmd x && own && planOk c cmd x false own rest
  | x, dc, own, .acq :: rest =>
    decide (cmd = some .openSession) && decide (x = .opening) && !own && planOk c cmd x dc true rest
  | x, dc, own, .set l v :: rest =>
    mayAbort cmd x && own && planOk c cmd x (if l = .dc then v else dc) own rest
  | x, dc, own, .xfer b :: rest =>
    mayAbort cmd x && own && (dc || decide (b ∈ panelBytes)) && planOk c cmd x dc own rest
  | x, dc, own, .hold _ :: rest => planOk c cmd x dc own rest
  | x, dc, own, .busyWait k :: rest => mayAbort cmd x && own && decide (k ≤ nPoll c) && planOk c cmd x dc own rest
  | x, dc, own, .pollHold k :: rest => mayAbort cmd x && own && decide (k < nPoll c) && planOk c cmd x dc own rest
  | x, _, own, .fill _ _ :: rest => mayAbort cmd x && own && planOk c cmd x false own rest
  | x, _, own, .stream _ _ :: rest => mayAbort cmd x && own && planOk c cmd x false own rest
  | x, _, own, .relSet _ :: rest => own && planOk c cmd x false own rest
  | x, dc, own, .rel :: rest => own && planOk c cmd x dc false rest
  | _, _, _, .halted :: _ => false

/-- Whether a model fault was made (60_exceptions.md R309). -/
def FaultSet.any (fs : FaultSet) : Bool := fs.unwrittenRead || fs.hostAccess || fs.hostHazard

/-- RUN and the sequencer agree: idle in a settled state, or holding one accepted word, or inside a script that keeps the rules, or halted by a model fault. -/
def SequencerOk (c : Config) (s : State) : Prop :=
  if s.run then
    (Settled s.sess ∧ ownFits s.sess s.own = true ∧ ∃ w, s.script = [.instr (.cmd w)])
      ∨ planOk c s.cmd s.sess s.dc s.own s.script = true
      ∨ (s.script = [.halted] ∧ s.faults.any = true)
  else Settled s.sess ∧ ownFits s.sess s.own = true ∧ s.script = [] ∧ s.cmd = none

/-- Every byte the panel has been sent with DC = 0 is one of the eighteen (44_panel_protocol.md R232). -/
def TraceOk (tr : List Event) : Prop := ∀ b a, Event.xfer false b a ∈ tr → b ∈ panelBytes

/-- The memories are in canonical form and inside their sizes (10_state.md R30). -/
def MemoriesOk (c : Config) (s : State) : Prop :=
  Mem.wf s.inRam (frameSize c) ∧ Mem.wf s.frameRam (frameSize c) ∧ Mem.wf s.packRam (packSize c)

/-- The invariant under the parameters `c`. -/
def InvWith (c : Config) (s : State) : Prop := MemoriesOk c s ∧ SequencerOk c s ∧ TraceOk s.trace

/-- The invariant of this hardware. -/
def Inv (s : State) : Prop := InvWith Config.epd6 s

/-! ### The host port's map in numbers (20_memory.md R61, R64; 10_state.md R30) -/

/-- A memory window: its first host address, the bytes of its memory, the memory. -/
abbrev HostWindow (base size : Nat) (mem : State → Mem) : Prop :=
  (base = 0x400000 ∧ size = 1152000 ∧ mem = State.inRam)
  ∨ (base = 0x800000 ∧ size = 1152000 ∧ mem = State.frameRam)
  ∨ (base = 0xC00000 ∧ size = 192000 ∧ mem = State.packRam)

/-- An access width and its bytes. -/
abbrev HostWidth (w : Width) (n : Nat) : Prop := (w = .w8 ∧ n = 1) ∨ (w = .w16 ∧ n = 2) ∨ (w = .w32 ∧ n = 4)

/-! ### Rasters (00_scope.md R10) -/

/-- A raster as a function of the coordinates. -/
abbrev Raster := Nat → Nat → Rgb

/-- The memory holds the `w × h` raster `f`, every byte of it written. -/
abbrev HoldsRaster (m : Mem) (w h : Nat) (f : Raster) : Prop :=
  ∀ x < w, ∀ y < h, readPix m w x y = some (f x y)

/-- The raster with one pixel replaced. -/
def setAt (f : Raster) (x y : Nat) (p : Rgb) : Raster := fun x' y' => if x' = x ∧ y' = y then p else f x' y'

/-- Diffusion of `v` into the pixel at the integer coordinates (x, y) (42_dither.md R161). -/
def diffuseAt (f : Raster) (x y : Int) (v : Amount) : Raster :=
  setAt f x.toNat y.toNat (addSat (f x.toNat y.toNat) v)

/-- The Floyd–Steinberg table of R165 as R167 writes it: offsets and weight. -/
def fsTable : List (Int × Int × Int) := [(1, 0, 7), (-1, 1, 3), (0, 1, 5), (1, 1, 1)]

/-- The Atkinson table of R170 as R172 writes it: offsets. -/
def atkTable : List (Int × Int) := [(1, 0), (2, 0), (-1, 1), (0, 1), (1, 1), (0, 2)]

/-- One visit of R167 on the raster. -/
def fsVisitRaster (c : Config) (p : Palette) (x y : Nat) (f : Raster) : Raster :=
  let old := f x y
  let q := (nearest p old).rgb
  if (y : Int) < c.H - 1 ∧ 1 ≤ x ∧ (x : Int) < c.W - 1 then
    fsTable.foldl (fun f t => diffuseAt f (x + t.1) (y + t.2.1) (fsAmount c.fsRound (pixelError old q) t.2.2)) (setAt f x y q)
  else setAt f x y q

/-- One contribution of R172: past the west edge `atk_west` decides (R171). -/
def atkStepRaster (c : Config) (x y : Nat) (v : Amount) (f : Raster) (t : Int × Int) : Raster :=
  if (x : Int) + t.1 < 0 then
    match c.atkWest with
    | .discard => f
    | .rowWrap => diffuseAt f ((c.W : Int) - 1) y v
  else diffuseAt f (x + t.1) (y + t.2) v

/-- One visit of R172 on the raster. -/
def atkVisitRaster (c : Config) (p : Palette) (x y : Nat) (f : Raster) : Raster :=
  let old := f x y
  let q := (nearest p old).rgb
  if (y : Int) < c.H - 2 ∧ (x : Int) < c.W - 2 then
    atkTable.foldl (atkStepRaster c x y (atkAmount (pixelError old q))) (setAt f x y q)
  else setAt f x y q

/-- A pass in row-major order (42_dither.md R160). -/
def passRaster (c : Config) (v : Nat → Nat → Raster → Raster) (f : Raster) : Raster :=
  (List.range c.H).foldl (fun f y => (List.range c.W).foldl (fun f x => v x y f) f) f

/-! ### Event lists with every outcome `ok` (44_panel_protocol.md, 45_session.md) -/

/-- The environment answers `ok` to every event and every sample reads idle. -/
abbrev AllOk (c : Config) : Prop := (∀ n, c.ack n = .ok) ∧ ∀ n, c.sample n = some c.busyIdleLevel

/-- `SendData` of each byte (44_panel_protocol.md R207). -/
def dataEvents (p : List Byte) : List Event := p.flatMap fun d => [.set .dc true .ok, .xfer true d .ok]

/-- `WriteReg(b, p)` (R208). -/
def writeEvents (b : Byte) (p : List Byte) : List Event :=
  [.set .dc false .ok, .xfer false b .ok] ++ dataEvents p

/-- A sample that reads idle. -/
def idleSample (c : Config) : Event := .sample (some c.busyIdleLevel)

/-- The first events of OPEN, up to its busy-wait (45_session.md R260, 44_panel_protocol.md R210). -/
def wakeEvents (c : Config) : List Event :=
  [.acq .ok, .set .pwr true .ok, .set .rst true .ok, .hold c.resetHoldMs, .set .rst false .ok, .hold c.resetHoldMs,
   .set .rst true .ok, .hold c.resetHoldMs]

/-- A busy-wait whose samples all read busy: `n_poll` times a sample and a hold, then the last sample (44_panel_protocol.md R209). -/
def stuckEvents (c : Config) : List Event :=
  (List.replicate (nPoll c) [.sample (some (!c.busyIdleLevel)), .hold c.pollMs]).flatten
    ++ [.sample (some (!c.busyIdleLevel))]

/-- The events of OPEN (45_session.md R260). -/
def openEvents (c : Config) : List Event :=
  wakeEvents c ++ [idleSample c]
  ++ ([0xAA, 0x01, 0x00, 0x03, 0x05, 0x06, 0x08, 0x30, 0x50, 0x60, 0x61, 0x84, 0xE3] : List Byte).flatMap
      (fun b => writeEvents b (c.initPayload b))
  ++ writeEvents 0x04 (c.extraPayload 0x04) ++ [idleSample c]

/-- The events of the turn-on sequence (44_panel_protocol.md R229). -/
def turnOnEvents (c : Config) : List Event :=
  writeEvents 0x04 (c.extraPayload 0x04) ++ [idleSample c]
  ++ c.turnonBooster.flatMap (fun b => writeEvents b (c.initPayload b))
  ++ writeEvents 0x12 (c.extraPayload 0x12) ++ [idleSample c]
  ++ writeEvents 0x02 (c.extraPayload 0x02) ++ [idleSample c]

/-- The events of CLEAR and DISPLAY that stream the bytes `buf` (45_session.md R261, R262). -/
def refreshEvents (c : Config) (buf : List Byte) : List Event := writeEvents 0x10 buf ++ turnOnEvents c

/-- The events of CLOSE from IDLE (45_session.md R263). -/
def closeEvents (c : Config) : List Event :=
  writeEvents 0x02 (c.extraPayload 0x02) ++ [idleSample c] ++ writeEvents 0x07 [0xA5]
  ++ [.set .rst false .ok, .set .dc false .ok, .set .pwr false .ok, .rel]

/-- A core that has accepted the command word `w` and makes the next steps alone. -/
abbrev HoldsCommand (w : Word32) (s : State) : Prop :=
  s.run = true ∧ s.script = [.instr (.cmd w)] ∧ s.hostQ = []

/-! ### How a command aborts (44_panel_protocol.md R211) -/

/-- `t` is `s` after `raise Err(e)` of BusError or DeviceTimeout: SESS is FAILED and the command is over; in CLOSE the release tail is left, which ends in CLOSED with `e` (45_session.md R263). -/
abbrev AbortsWith (e : Err) (s t : State) : Prop :=
  if s.cmd = some .closeSession then
    t = { s with script := [.relSet .rst, .relSet .dc, .relSet .pwr, .rel, .finish .closed e] }
  else t = { s with sess := .failed, err := e, run := false, cmd := none, script := [] }

/-- `t` is `s` after the first event of `WriteReg(b, payload)`, `Set(DC, 0)`: on `ok` DC is 0 and the transfer of `b`, the data bytes and then `after` are the next operations, on `err` the command aborts with DC at its old level or 0 (44_panel_protocol.md R204 to R208, R211). -/
abbrev StartsWrite (b : Byte) (payload : List Byte) (after : List Op) (s t : State) : Prop :=
  (Config.epd6.ack s.draws = .ok →
    t = { s with
          dc := false, trace := .set .dc false .ok :: s.trace, draws := s.draws + 1
          script := .xfer b :: (payload.flatMap (fun d => [.set .dc true, .xfer d]) ++ after ++ s.script.tail) })
  ∧ (Config.epd6.ack s.draws = .err →
    AbortsWith .busError
      { s with
        dc := if Config.epd6.latchTaken s.draws then false else s.dc
        trace := .set .dc false .err :: s.trace, draws := s.draws + 1 } t)

/-- `t` is `s` after the first event of `SendData(b)`, `Set(DC, 1)`, with `after` to follow: on `ok` DC is 1 and the transfer of `b` is next, on `err` the command aborts with DC at its old level or 1 (44_panel_protocol.md R204, R205, R207, R211). -/
abbrev StartsData (b : Byte) (after : List Op) (s t : State) : Prop :=
  (Config.epd6.ack s.draws = .ok →
    t = { s with
          dc := true, trace := .set .dc true .ok :: s.trace, draws := s.draws + 1, script := .xfer b :: after })
  ∧ (Config.epd6.ack s.draws = .err →
    AbortsWith .busError
      { s with
        dc := if Config.epd6.latchTaken s.draws then true else s.dc
        trace := .set .dc true .err :: s.trace, draws := s.draws + 1 } t)

/-- Under the parameters `c` the core, left alone in `s`, ends its command with ERR = 0 and exactly `n` events added to the trace. -/
abbrev EndsAfter (c : Config) (s : State) (n : Nat) : Prop :=
  ∃ k t, runWith c k s = .next t ∧ t.run = false ∧ t.err = .ok ∧ t.trace.length = s.trace.length + n

/-- A command word that does not decode (30_encoding.md R95, R102): an unlisted OPC, or a reserved operand bit that is 1. -/
abbrev IllegalWord (w : Word32) : Prop :=
  w.toNat / 2 ^ 24 ∉ [0x01, 0x02, 0x03, 0x04, 0x05, 0x10, 0x11, 0x12, 0x13]
  ∨ (w.toNat / 2 ^ 24 ∈ [0x02, 0x03, 0x04, 0x05, 0x10, 0x13] ∧ w.toNat % 2 ^ 24 ≠ 0)
  ∨ (w.toNat / 2 ^ 24 = 0x11 ∧ w.toNat % 2 ^ 24 / 16 ≠ 0)

/-- `t` is `s` with a command completed: ERR is `e`, RUN is 0, no command is in progress, nothing else changed (60_exceptions.md R300). -/
abbrev completed (e : Err) (s : State) : State := { s with err := e, run := false, cmd := none, script := [] }

end Sys2Proof.Machine
end

