-- ==== Sys2Proof/WellFormed.lean ====
section
/-! DEFINITION. Well-formedness: of an instruction (its field types carry every bound) and of a configuration (the constraints of 00_scope.md R6). -/

namespace Sys2Proof

/-- Every instruction is well formed: r, g, b are `u8` with every value legal (30_encoding.md R92), CLEAR's ID is a `u4` whose palette check is done at execution (R103), DISPLAY's LEN is a `u24` with every value accepted by decoding (R94), and no other instruction has an operand. -/
def Instr.wellFormed : Instr → Bool
  | .nearest _ _ _ => true
  | .orient => true
  | .ditherFs => true
  | .ditherAtk => true
  | .pack => true
  | .openSession => true
  | .clear _ => true
  | .display _ => true
  | .closeSession => true
  | .panelCmdh => true
  | .panelPanelSetting => true
  | .panelDriverOutput => true
  | .panelResSetting => true
  | .panelBoosterSoftStart1 => true
  | .panelBoosterSoftStart2 => true
  | .panelBoosterSoftStart3 => true
  | .panelPll => true
  | .panelVcom => true
  | .panelTcon => true
  | .panelResolution => true
  | .panelTse => true
  | .panelPowerSaving => true
  | .panelPowerOn => true
  | .panelWriteRam => true
  | .panelDisplayRefresh => true
  | .panelPowerOff => true
  | .panelDeepSleep => true

/-- The size constraints of 00_scope.md R6, `W ≥ 1` and `H ≥ 1`, which a reduced instance keeps too (D56). -/
def Config.sizeOk (c : Config) : Bool := decide (1 ≤ c.W) && decide (1 ≤ c.H)

/-- `W` is even, which CLEAR and DISPLAY need (R6, D56). -/
def Config.widthEven (c : Config) : Bool := decide (c.W % 2 = 0)

/-- 40_quantizer.md R131: the six colours are pairwise distinct. -/
def Config.paletteOk (c : Config) : Bool := decide c.palette.Distinct

/-- The poll interval is not 0, so that `n_poll` is defined (R6). -/
def Config.pollOk (c : Config) : Bool := decide (1 ≤ c.pollMs)

/-- The booster commands sent again are among 0x05, 0x06 and 0x08 (R6, 44_panel_protocol.md R229). -/
def Config.boosterOk (c : Config) : Bool := c.turnonBooster.all fun b => decide (b = 0x05 ∨ b = 0x06 ∨ b = 0x08)

/-- The bit clock is 10 to 20 MHz (R6). -/
def Config.spiOk (c : Config) : Bool := decide (10000000 ≤ c.spiHz ∧ c.spiHz ≤ 20000000)

/-- A configuration the spec admits. -/
def Config.wellFormed (c : Config) : Bool :=
  c.sizeOk && c.widthEven && c.paletteOk && c.pollOk && c.boosterOk && c.spiOk

end Sys2Proof
end

