-- ==== Sys2Proof/Certificates/Slice0/Obligations.lean ====
section
/-! DEFINITION. The statements for the provers. They are about the machine of this hardware (`exec`, `step`), for every value of its OPEN parameters and draws; those that need an environment given in full are about the machine under any parameters `c` (`runWith c`). -/

open Sys2Proof Sys2Proof.Machine

/-! ### Encoding -/

/-- Decoding gives back every encoded instruction, with every operand value (30_encoding.md R91 to R94, R104). -/
def Obligations.DecodeEncodeRoundTrip : Prop :=
  ∀ i : Instr, i.wellFormed = true → decode (encode i) = .ok i

/-- A code that decodes is the encoding of what it decodes to: no two codes share a meaning (30_encoding.md R103, R104). -/
def Obligations.DecodedCodeReencodes : Prop :=
  ∀ (k : Code) (i : Instr), decode k = .ok i → encode i = k

/-- Every command word decodes as the function of 30_encoding.md R103 says. -/
def Obligations.CommandWordDecodesAsTabulated : Prop :=
  ∀ w : Word32,
    (w.toNat / 2 ^ 24 = 0x01 →
      decodeCommand w = .ok (.nearest (BitVec.ofNat 8 (w.toNat / 2 ^ 16)) (BitVec.ofNat 8 (w.toNat / 2 ^ 8))
        (BitVec.ofNat 8 w.toNat)))
    ∧ (∀ p ∈ [(0x02, Instr.orient), (0x03, .ditherFs), (0x04, .ditherAtk), (0x05, .pack), (0x10, .openSession),
        (0x13, .closeSession)], w.toNat / 2 ^ 24 = p.1 →
      decodeCommand w =
        if w.toNat % 2 ^ 24 = 0 then .ok p.2 else .error (.reservedOperandBits (BitVec.ofNat 8 p.1)))
    ∧ (w.toNat / 2 ^ 24 = 0x11 →
      decodeCommand w =
        if w.toNat % 2 ^ 24 / 16 = 0 then .ok (.clear (BitVec.ofNat 4 w.toNat))
        else .error (.reservedOperandBits 0x11))
    ∧ (w.toNat / 2 ^ 24 = 0x12 → decodeCommand w = .ok (.display (BitVec.ofNat 24 w.toNat)))
    ∧ (w.toNat / 2 ^ 24 ∉ [0x01, 0x02, 0x03, 0x04, 0x05, 0x10, 0x11, 0x12, 0x13] →
      decodeCommand w = .error (.illegalOpcode (BitVec.ofNat 8 (w.toNat / 2 ^ 24))))

/-- The worked words of 30_encoding.md R91 to R95 and R102 and panel bytes of R104: eight decode to their instructions, 0x02000001 and 0x00000000 are refused. -/
def Obligations.SpecWordsDecode : Prop :=
  decode (.cmd 0x01FF649B) = .ok (.nearest 255 100 155)
  ∧ decode (.cmd 0x11000001) = .ok (.clear 1)
  ∧ decode (.cmd 0x1202EE00) = .ok (.display 192000)
  ∧ decode (.cmd 0x1202EDFF) = .ok (.display 191999)
  ∧ decode (.cmd 0x02000000) = .ok .orient
  ∧ decode (.cmd 0x02000001) = .error (.reservedOperandBits 0x02)
  ∧ decode (.cmd 0x00000000) = .error (.illegalOpcode 0x00)
  ∧ decode (.panel 0x00) = .ok .panelDriverOutput
  ∧ decode (.panel 0xE3) = .ok .panelPowerSaving
  ∧ decode (.panel 0x07) = .ok .panelDeepSleep

/-! ### Fetching and starting a command -/

/-- When the sequencer's next operation is an instruction that decodes to `i` and the core moves, the step is `exec i`; the host's `pass` is used up, its `WAIT` stays (10_state.md R34, 30_encoding.md R101). That the sequencer fetches at the script's head (log entry 18), that `pass` is used up (log entry 3) and that `WAIT` stays (log entry 30) are the model's choices. -/
def Obligations.StepRunsDecodedInstruction : Prop :=
  ∀ (s : State) (k : Code) (i : Instr) (rest : List Op),
    s.run = true → s.script = .instr k :: rest → decode k = .ok i →
      (s.hostQ = [] → step s = exec i s)
      ∧ (∀ q, s.hostQ = .pass :: q → step s = exec i { s with hostQ := q })
      ∧ (∀ q, s.hostQ = .wait :: q → step s = exec i s)

/-- A CMD write of an illegal word with RUN = 0, then the core's step, leave ERR = 7 and LASTOP = OPC and change nothing else (30_encoding.md R95, R102). -/
def Obligations.IllegalWordOnlySetsErrAndLastOp : Prop :=
  ∀ (s : State) (w : Word32) (q : List HostAct),
    s.run = false → s.hostQ = .wr .w32 0x000 w :: .pass :: q → IllegalWord w →
      runSteps step 2 s =
        .next { completed .illegalCommand s with lastOp := BitVec.ofNat 8 (w.toNat / 2 ^ 24), hostQ := q }

/-- A CMD write with RUN = 0 sets RUN and LASTOP and gives the sequencer the word; nothing else changes (10_state.md R22, R36). -/
def Obligations.CmdWriteStartsCommand : Prop :=
  ∀ (s : State) (v : Word32) (q : List HostAct),
    s.run = false → s.hostQ = .wr .w32 0x000 v :: q →
      step s = .next { s with
        run := true, lastOp := BitVec.ofNat 8 (v.toNat / 2 ^ 24), cmd := none, script := [.instr (.cmd v)], hostQ := q }

/-- A write to CMD or IN_DIM while RUN = 1 is dropped: OVR becomes 1 and nothing else changes (60_exceptions.md R320). -/
def Obligations.DroppedWriteOnlySetsOvr : Prop :=
  ∀ (s : State) (a : BitVec 24) (v : Word32) (q : List HostAct),
    s.run = true → (a = 0x000 ∨ a = 0x00C) → s.hostQ = .wr .w32 a v :: q →
      step s = .next { s with ovr := true, hostQ := q }

/-- OVR stays 1 through every step but a STATUS write with bit 8 set and a core reset (60_exceptions.md R320, 10_state.md R37). -/
def Obligations.OvrStaysUntilCleared : Prop :=
  ∀ s t : State, s.ovr = true → step s = .next t →
    (∀ v q, s.hostQ = .wr .w32 0x004 v :: q → v.getLsbD 8 = false) → (∀ q, s.hostQ ≠ .reset :: q) → t.ovr = true

/-- What an aligned 32-bit register write other than to CMD does: STATUS clears OVR when bit 8 of the word is 1, whatever RUN is; IN_DIM with RUN = 0 takes the word; a reserved offset ignores it; nothing else changes (10_state.md R23, R25, R28). That RESULT, LINES and ID ignore a write is the model's choice (log entry 12). -/
def Obligations.RegisterWritesActAsListed : Prop :=
  ∀ (s : State) (a : BitVec 24) (v : Word32) (q : List HostAct), s.hostQ = .wr .w32 a v :: q →
    (a = 0x004 → step s = .next { s with ovr := s.ovr && !(v.toNat / 256 % 2 == 1), hostQ := q })
    ∧ (a = 0x00C → s.run = false → step s = .next { s with inDim := v, hostQ := q })
    ∧ (a = 0x008 ∨ a = 0x010 ∨ a = 0x014 → step s = .next { s with hostQ := q })
    ∧ (0x018 ≤ a.toNat → a.toNat < 0x400000 → a.toNat % 4 = 0 → step s = .next { s with hostQ := q })

/-! ### The host port -/

/-- Every aligned 32-bit read of the register window returns the register's word and changes nothing, in every state; CMD and reserved offsets read 0 (10_state.md R22 to R28, 20_memory.md R70). That CMD, IN_DIM and reserved offsets are read so while RUN = 1 too is the model's inference (log entry 13). The codes of ERR and STATE are those of 60_exceptions.md R301 and 45_session.md R250. -/
def Obligations.RegisterReadsReturnTheirWords : Prop :=
  (∀ (s : State) (a : BitVec 24) (q : List HostAct),
    s.hostQ = .rd .w32 a :: q → a.toNat < 0x400000 → a.toNat % 4 = 0 →
      ∃ v : Word32, step s = .next { s with reads := v :: s.reads, hostQ := q }
        ∧ (a = 0x004 → v.toNat = s.lastOp.toNat * 65536 + s.ovr.toNat * 256 + (errCode s.err).toNat * 16
            + (sessCode s.sess).toNat * 2 + s.run.toNat)
        ∧ (a = 0x008 → v = s.result)
        ∧ (a = 0x00C → v = s.inDim)
        ∧ (a = 0x010 → v.toNat = s.own.toNat * 16 + s.busyRaw.toNat * 8 + s.pwr.toNat * 4 + s.dc.toNat * 2 + s.rst.toNat)
        ∧ (a = 0x014 → v = 0x01E00320)
        ∧ (a ∉ [0x004, 0x008, 0x00C, 0x010, 0x014] → v = 0))
  ∧ [Err.ok, .dimensionMismatch, .oddPixelCount, .sizeMismatch, .busError, .deviceTimeout, .illegalState,
      .illegalCommand].map errCode = [0, 1, 2, 3, 4, 5, 6, 7]
  ∧ [Sess.closed, .opening, .idle, .busy, .sleeping, .failed].map sessCode = [0, 1, 2, 3, 4, 5]

/-- A host write of 1, 2 or 4 bytes at offset `o` of a memory window (IN_RAM from 0x400000 and FRAME_RAM from 0x800000, 1,152,000 bytes each, PACK_RAM from 0xC00000, 192,000 bytes), aligned and inside the memory, with RUN = 0, stores the value's bytes little-endian and sets their written-flags; every other byte, memory and register is unchanged (20_memory.md R61, R62, R64; 10_state.md R30, R31). -/
def Obligations.HostMemoryWriteStoresItsBytes : Prop :=
  ∀ (s : State) (base size : Nat) (mem : State → Mem) (w : Width) (n o : Nat) (a : BitVec 24) (v : Word32)
    (q : List HostAct),
    HostWindow base size mem → HostWidth w n → a.toNat = base + o → o % n = 0 → o + n ≤ size →
    s.hostQ = .wr w a v :: q → s.run = false →
      ∃ t, step s = .next t
        ∧ (∀ j < n, readByte (mem t) (o + j) = some (BitVec.ofNat 8 (v.toNat / 256 ^ j)))
        ∧ (∀ b, b < o ∨ o + n ≤ b → readByte (mem t) b = readByte (mem s) b)
        ∧ (∀ base' size' mem', HostWindow base' size' mem' → base' ≠ base → mem' t = mem' s)
        ∧ t = { s with inRam := t.inRam, frameRam := t.frameRam, packRam := t.packRam, hostQ := q }

/-- A host read right after a host write of the same width and address, legal and with RUN = 0, returns the value written, cut to the width (20_memory.md R61, R62, R64). That a narrow value comes with zeros above its width is the model's convention (log entry 21). -/
def Obligations.HostReadAfterWriteReturnsValue : Prop :=
  ∀ (s : State) (base size : Nat) (mem : State → Mem) (w : Width) (n o : Nat) (a : BitVec 24) (v : Word32)
    (q : List HostAct),
    HostWindow base size mem → HostWidth w n → a.toNat = base + o → o % n = 0 → o + n ≤ size →
    s.hostQ = .wr w a v :: .rd w a :: q → s.run = false →
      ∃ t, runSteps step 2 s = .next t
        ∧ t.reads = BitVec.ofNat 32 (v.toNat % 256 ^ n) :: s.reads
        ∧ t = { s with inRam := t.inRam, frameRam := t.frameRam, packRam := t.packRam, reads := t.reads, hostQ := q }

/-- A misaligned host access, or one of the register window (below 0x400000) that is not 4 bytes wide, records the fault HostAccess and has no value and no other effect, in every state (20_memory.md R65, 60_exceptions.md R309). That it is HostAccess and not HostHazard also while RUN = 1 is the model's inference (log entry 14). -/
def Obligations.MisalignedOrNarrowRegisterAccessFaults : Prop :=
  ∀ (s : State) (w : Width) (n : Nat) (a : BitVec 24) (v : Word32) (q : List HostAct),
    HostWidth w n → (a.toNat % n ≠ 0 ∨ (a.toNat < 0x400000 ∧ n ≠ 4)) →
      (s.hostQ = .rd w a :: q ∨ s.hostQ = .wr w a v :: q →
        step s = .next { s with faults := { s.faults with hostAccess := true }, hostQ := q })

/-- An aligned access of 1, 2 or 4 bytes to a memory window (IN_RAM from 0x400000 and FRAME_RAM from 0x800000, 1,152,000 bytes each, PACK_RAM from 0xC00000, 192,000 bytes, each window 0x400000 long): past the memory's end it records HostAccess; inside it while RUN = 1 it records HostHazard, and the command in progress gets no result; a read inside it with RUN = 0 of a byte never written records UnwrittenRead. The access has no value and no other effect (20_memory.md R61, R64, R69, R78; 10_state.md R30, R31; 60_exceptions.md R309). That HostAccess comes before HostHazard is the model's inference (log entry 14), that the command halts until a core reset its choice (log entry 32). -/
def Obligations.MemoryAccessFaults : Prop :=
  ∀ (s : State) (base size : Nat) (mem : State → Mem) (w : Width) (n : Nat) (a : BitVec 24) (v : Word32)
    (q : List HostAct),
    HostWindow base size mem → HostWidth w n → base ≤ a.toNat → a.toNat < base + 0x400000 → a.toNat % n = 0 →
      (size < a.toNat - base + n → s.hostQ = .rd w a :: q ∨ s.hostQ = .wr w a v :: q →
        step s = .next { s with faults := { s.faults with hostAccess := true }, hostQ := q })
      ∧ (a.toNat - base + n ≤ size → s.run = true → s.hostQ = .rd w a :: q ∨ s.hostQ = .wr w a v :: q →
        step s = .next { s with
          faults := { s.faults with hostHazard := true }, script := [.halted], hostQ := q })
      ∧ (a.toNat - base + n ≤ size → s.run = false → (∃ j < n, readByte (mem s) (a.toNat - base + j) = none) →
        s.hostQ = .rd w a :: q →
        step s = .next { s with faults := { s.faults with unwrittenRead := true }, hostQ := q })

/-! ### NEAREST -/

/-- NEAREST completes in every state: RESULT holds the nearest entry's ID, R, G, B, ERR is 0, nothing else changes (40_quantizer.md R134, 10_state.md R24). -/
def Obligations.NearestWritesResult : Prop :=
  ∀ (r g b : Byte) (s : State), ∃ w : Word32,
    exec (.nearest r g b) s = .next { completed .ok s with result := w }
    ∧ w.toNat = (nearest s.palette ⟨r, g, b⟩).id.toNat * 2 ^ 24 + (nearest s.palette ⟨r, g, b⟩).rgb.r.toNat * 2 ^ 16
        + (nearest s.palette ⟨r, g, b⟩).rgb.g.toNat * 2 ^ 8 + (nearest s.palette ⟨r, g, b⟩).rgb.b.toNat

/-- `nearest` returns the entry of least distance, and of those the one of lowest index (40_quantizer.md R133). -/
def Obligations.NearestIsFirstMinimum : Prop :=
  ∀ (p : Palette) (c : Rgb), ∃ i : Nat, ∃ e : PalEntry,
    (paletteEntries p)[i]? = some e ∧ nearest p c = e
    ∧ ∀ (j : Nat) (f : PalEntry), (paletteEntries p)[j]? = some f →
        dist c e.rgb ≤ dist c f.rgb ∧ (j < i → dist c e.rgb < dist c f.rgb)

/-- The distance is the squared Euclidean distance, exactly, between 0 and 195075 (40_quantizer.md R132). -/
def Obligations.DistanceIsSquaredEuclidean : Prop :=
  ∀ a b : Rgb,
    dist a b = ((a.r.toNat : Int) - b.r.toNat) ^ 2 + ((a.g.toNat : Int) - b.g.toNat) ^ 2 + ((a.b.toNat : Int) - b.b.toNat) ^ 2
    ∧ 0 ≤ dist a b ∧ dist a b ≤ 195075

/-- With distinct colours every palette colour is nearest to itself; whatever the palette, the identifier is one of the six and quantizing a quantized colour leaves it (40_quantizer.md R135). -/
def Obligations.NearestFixesPaletteColours : Prop :=
  (∀ p : Palette, p.Distinct → ∀ e ∈ paletteEntries p, nearest p e.rgb = e)
  ∧ (∀ (p : Palette) (c : Rgb), (nearest p c).id ∈ ([0x0, 0x1, 0x2, 0x3, 0x5, 0x6] : List PalId)
      ∧ (nearest p (nearest p c).rgb).rgb = (nearest p c).rgb)

/-! ### ORIENT -/

/-- ORIENT with dimensions that are neither 800×480 nor 480×800 raises DimensionMismatch and changes nothing else, whatever the memories hold (41_orient.md R150, R153). -/
def Obligations.OrientRefusesOtherDimensions : Prop :=
  ∀ s : State, s.inDim ≠ 0x01E00320 → s.inDim ≠ 0x032001E0 →
    exec .orient s = .next (completed .dimensionMismatch s)

/-- ORIENT of a written landscape input copies it into FRAME_RAM (41_orient.md R151) and changes nothing else. -/
def Obligations.OrientCopiesLandscape : Prop :=
  ∀ (s : State) (f : Raster), s.inDim = 0x01E00320 → HoldsRaster s.inRam 800 480 f →
    ∃ t, exec .orient s = .next t ∧ HoldsRaster t.frameRam 800 480 f
      ∧ (∀ a, 1152000 ≤ a → readByte t.frameRam a = readByte s.frameRam a)
      ∧ t = { completed .ok s with frameRam := t.frameRam }

/-- ORIENT of a written portrait input rotates it counter-clockwise into FRAME_RAM: frame pixel (x, y) is input column 479-y of row x, and back (41_orient.md R152, R154); nothing else changes. -/
def Obligations.OrientRotatesPortrait : Prop :=
  ∀ (s : State) (f : Raster), s.inDim = 0x032001E0 → HoldsRaster s.inRam 480 800 f →
    ∃ t, exec .orient s = .next t
      ∧ HoldsRaster t.frameRam 800 480 (fun x y => f (479 - y) x)
      ∧ (∀ col < 480, ∀ row < 800, readPix t.frameRam 800 row (479 - col) = some (f col row))
      ∧ (∀ a, 1152000 ≤ a → readByte t.frameRam a = readByte s.frameRam a)
      ∧ t = { completed .ok s with frameRam := t.frameRam }

/-! ### DITHER_FS, DITHER_ATK -/

/-- DITHER_FS of a written frame completes with the raster the pass of 42_dither.md R167 gives, and changes nothing but the frame's bytes. -/
def Obligations.DitherFsIsTheRasterPass : Prop :=
  ∀ (s : State) (f : Raster), HoldsRaster s.frameRam 800 480 f →
    ∃ t, exec .ditherFs s = .next t
      ∧ HoldsRaster t.frameRam 800 480 (passRaster Config.epd6 (fsVisitRaster Config.epd6 s.palette) f)
      ∧ (∀ a, 1152000 ≤ a → readByte t.frameRam a = readByte s.frameRam a)
      ∧ t = { completed .ok s with frameRam := t.frameRam }

/-- DITHER_ATK of a written frame completes with the raster the pass of 42_dither.md R172 gives, and changes nothing but the frame's bytes. -/
def Obligations.DitherAtkIsTheRasterPass : Prop :=
  ∀ (s : State) (f : Raster), HoldsRaster s.frameRam 800 480 f →
    ∃ t, exec .ditherAtk s = .next t
      ∧ HoldsRaster t.frameRam 800 480 (passRaster Config.epd6 (atkVisitRaster Config.epd6 s.palette) f)
      ∧ (∀ a, 1152000 ≤ a → readByte t.frameRam a = readByte s.frameRam a)
      ∧ t = { completed .ok s with frameRam := t.frameRam }

/-- Either dither of a frame with every byte written answers a next state in which every frame pixel is a palette colour and its own nearest colour (42_dither.md R173). -/
def Obligations.DitheredFrameIsPaletteColours : Prop :=
  ∀ s : State, AllWritten s.frameRam 1152000 → ∀ i ∈ [Instr.ditherFs, .ditherAtk], ∃ t, exec i s = .next t ∧
    ∀ x < 800, ∀ y < 480, ∃ c, readPix t.frameRam 800 x y = some c ∧ c ∈ s.palette.colours ∧ (nearest s.palette c).rgb = c

/-- A frame of palette colours is left unchanged, byte for byte, by either dither (42_dither.md R174). -/
def Obligations.DitherFixesPaletteFrame : Prop :=
  ∀ (s : State) (f : Raster), HoldsRaster s.frameRam 800 480 f → (∀ x < 800, ∀ y < 480, f x y ∈ s.palette.colours) →
    ∃ t u, exec .ditherFs s = .next t ∧ exec .ditherAtk s = .next u
      ∧ (∀ a, readByte t.frameRam a = readByte s.frameRam a) ∧ (∀ a, readByte u.frameRam a = readByte s.frameRam a)

/-- ORIENT of a valid input, DITHER_FS, DITHER_ATK and PACK of a frame with some byte of it never written, and the stream of DISPLAY at a byte of PACK_RAM never written, record the fault UnwrittenRead and write and emit nothing (41_orient.md R153; 42_dither.md R167, R172; 43_packer.md R192; 45_session.md R262; 20_memory.md R66; 60_exceptions.md R309). That the command, which has no defined result then, halts until a core reset is the model's choice (log entry 32), and that DISPLAY reads the byte before `Set(DC, 1)` its inference (log entry 20). -/
def Obligations.CommandsFaultOnUnwrittenBytes : Prop :=
  ∀ s t : State, t = { s with faults := { s.faults with unwrittenRead := true }, script := [.halted] } →
    ((s.inDim = 0x01E00320 ∨ s.inDim = 0x032001E0) → ¬ AllWritten s.inRam 1152000 → exec .orient s = .next t)
    ∧ (¬ AllWritten s.frameRam 1152000 →
      exec .ditherFs s = .next t ∧ exec .ditherAtk s = .next t ∧ exec .pack s = .next t)
    ∧ (∀ k n rest, s.run = true → s.hostQ = [] → s.script = .stream k (n + 1) :: rest → readByte s.packRam k = none →
      step s = .next t)
    ∧ (s.run = true → s.hostQ = [] → s.script = [.halted] → step s = .next s)

/-- The weighted amount of one channel under the three policies of 42_dither.md R166, and that this hardware takes TruncDiv. -/
def Obligations.FsWeightRounds : Prop :=
  (∀ e w : Int,
    fsw .truncDiv e w = (e * w).sign * (((e * w).natAbs / 16 : Nat) : Int)
    ∧ 16 * fsw .floorShift e w ≤ e * w ∧ e * w < 16 * (fsw .floorShift e w + 1)
    ∧ fsw .roundNearest e w = (e * w).sign * ((((e * w).natAbs + 8) / 16 : Nat) : Int))
  ∧ Config.epd6.fsRound = .truncDiv

/-- The Atkinson amount of each channel is an eighth of the error, truncated toward zero, from -31 to 31 (42_dither.md R169). -/
def Obligations.AtkinsonErrorTruncates : Prop :=
  ∀ old q : Rgb, ∀ p ∈ [((atkAmount (pixelError old q)).r, (old.r.toNat : Int) - q.r.toNat),
      ((atkAmount (pixelError old q)).g, (old.g.toNat : Int) - q.g.toNat),
      ((atkAmount (pixelError old q)).b, (old.b.toNat : Int) - q.b.toNat)],
    p.1 = p.2.sign * ((p.2.natAbs / 8 : Nat) : Int) ∧ -31 ≤ p.1 ∧ p.1 ≤ 31

/-- The saturating add clamps each channel of the sum to 0 to 255 (42_dither.md R161). -/
def Obligations.DiffusionSaturates : Prop :=
  ∀ (p : Rgb) (v : Amount),
    ((addSat p v).r.toNat : Int) = min 255 (max 0 ((p.r.toNat : Int) + v.r))
    ∧ ((addSat p v).g.toNat : Int) = min 255 (max 0 ((p.g.toNat : Int) + v.g))
    ∧ ((addSat p v).b.toNat : Int) = min 255 (max 0 ((p.b.toNat : Int) + v.b))

/-! ### PACK -/

/-- PACK of a written frame puts the identifiers of pixels 2k and 2k+1 in the high and low nibble of byte k, for all 192,000 bytes, and changes nothing else (43_packer.md R192, R193). -/
def Obligations.PackWritesIdentifierPairs : Prop :=
  ∀ (s : State) (f : Raster), HoldsRaster s.frameRam 800 480 f →
    ∃ t, exec .pack s = .next t
      ∧ (∀ k < 192000, readByte t.packRam k =
          some (BitVec.ofNat 8 (16 * (nearest s.palette (f (2 * k % 800) (2 * k / 800))).id.toNat
            + (nearest s.palette (f ((2 * k + 1) % 800) ((2 * k + 1) / 800))).id.toNat)))
      ∧ (∀ a, 192000 ≤ a → readByte t.packRam a = readByte s.packRam a)
      ∧ t = { completed .ok s with packRam := t.packRam }

/-- Unpacking the packed buffer gives the identifiers of the frame's pixels in row-major order (43_packer.md R194). -/
def Obligations.UnpackRecoversIdentifiers : Prop :=
  ∀ (s : State) (f : Raster), HoldsRaster s.frameRam 800 480 f →
    ∃ t, exec .pack s = .next t
      ∧ unpack ((List.range 192000).filterMap (readByte t.packRam)) =
          (List.range 384000).map fun i => (nearest s.palette (f (i % 800) (i / 800))).id

/-- PACK under parameters with an odd pixel count raises OddPixelCount before any access (60_exceptions.md R303, 43_packer.md R192); on this hardware no instruction ever raises it. -/
def Obligations.PackRefusesOddPixelCount : Prop :=
  (∀ (c : Config) (s : State), c.W * c.H % 2 = 1 → execWith c .pack s = .next (completed .oddPixelCount s))
  ∧ ∀ (i : Instr) (s t : State), exec i s = .next t → t.err = .oddPixelCount → s.err = .oddPixelCount

/-! ### OPEN, CLEAR, DISPLAY, CLOSE -/

/-- OPEN in CLOSED enters OPENING and leaves the events of 45_session.md R260 to the sequencer: Acquire, power, the reset sequence, a busy-wait, the thirteen init bytes, power-on, the completion in IDLE. -/
def Obligations.OpenStartsFromClosed : Prop :=
  ∀ s : State, s.sess = .closed →
    exec .openSession s = .next { s with
      sess := .opening
      cmd := some .openSession
      script := [.acq, .set .pwr true, .set .rst true, .hold 20, .set .rst false, .hold 20, .set .rst true, .hold 20,
          .busyWait 0]
        ++ ([0xAA, 0x01, 0x00, 0x03, 0x05, 0x06, 0x08, 0x30, 0x50, 0x60, 0x61, 0x84, 0xE3, 0x04] : List Byte).map
            (fun b => .instr (.panel b))
        ++ [.finish .idle .ok] }

/-- CLEAR of a palette identifier in IDLE, and DISPLAY of 192,000 bytes in IDLE, enter BUSY and leave 0x10 and the turn-on sequence to the sequencer (45_session.md R261, R262; 44_panel_protocol.md R229). -/
def Obligations.ClearAndDisplayStartFromIdle : Prop :=
  ∀ (s : State) (i : Instr), s.sess = .idle →
    ((∃ id ∈ ([0x0, 0x1, 0x2, 0x3, 0x5, 0x6] : List PalId), i = .clear id) ∨ i = .display 192000) →
      exec i s = .next { s with
        sess := .busy
        cmd := some i
        script := ([0x10, 0x04, 0x06, 0x12, 0x02] : List Byte).map (fun b => .instr (.panel b)) ++ [.finish .idle .ok] }

/-- CLOSE in each settled state (45_session.md R263): nothing but ERR = 0 in CLOSED; from FAILED the release, or the latches alone when the lines are not owned; from IDLE power-off, deep-sleep, SLEEPING and the release. -/
def Obligations.CloseActsByState : Prop :=
  ∀ s : State,
    (s.sess = .closed → exec .closeSession s = .next (completed .ok s))
    ∧ (s.sess = .failed → s.own = true →
        exec .closeSession s = .next { s with
          cmd := some .closeSession, script := [.relSet .rst, .relSet .dc, .relSet .pwr, .rel, .finish .closed .ok] })
    ∧ (s.sess = .failed → s.own = false →
        exec .closeSession s = .next { completed .ok s with sess := .closed, rst := false, dc := false, pwr := false })
    ∧ (s.sess = .idle →
        exec .closeSession s = .next { s with
          sess := .busy
          cmd := some .closeSession
          script := [.instr (.panel 0x02), .instr (.panel 0x07), .sess .sleeping, .relSet .rst, .relSet .dc,
            .relSet .pwr, .rel, .finish .closed .ok] })

/-- OPEN outside CLOSED, and CLEAR and DISPLAY outside IDLE, raise IllegalState with no event and SESS unchanged (60_exceptions.md R307). -/
def Obligations.WrongStateRaisesIllegalState : Prop :=
  ∀ s : State,
    (s.sess ≠ .closed → exec .openSession s = .next (completed .illegalState s))
    ∧ (s.sess ≠ .idle → ∀ id, exec (.clear id) s = .next (completed .illegalState s))
    ∧ (s.sess ≠ .idle → ∀ len, exec (.display len) s = .next (completed .illegalState s))

/-- DISPLAY in IDLE with LEN other than 192,000 raises SizeMismatch with no event and SESS still IDLE, and no other instruction raises it (60_exceptions.md R304). -/
def Obligations.WrongLengthRaisesSizeMismatch : Prop :=
  (∀ (s : State) (len : BitVec 24), s.sess = .idle → len ≠ 192000 →
    exec (.display len) s = .next (completed .sizeMismatch s))
  ∧ ∀ (i : Instr) (s t : State), exec i s = .next t → t.err = .sizeMismatch → s.err ≠ .sizeMismatch →
      ∃ len, i = .display len ∧ s.sess = .idle ∧ len ≠ 192000

/-- CLEAR in IDLE with an identifier that is none of the six raises IllegalCommand with no event (45_session.md R261, 30_encoding.md R93). -/
def Obligations.ClearRefusesNonPaletteId : Prop :=
  ∀ (s : State) (id : PalId), s.sess = .idle → id ∉ ([0x0, 0x1, 0x2, 0x3, 0x5, 0x6] : List PalId) →
    exec (.clear id) s = .next (completed .illegalCommand s)

/-! ### The panel command bytes -/

/-- The thirteen init bytes, with their init payload, and deep-sleep, with 0xA5: each sends its byte with DC = 0 and then its payload, with no busy-wait after it (44_panel_protocol.md R212 to R224, R230). -/
def Obligations.PlainPanelBytesStartTheirWrite : Prop :=
  ∀ s : State,
    (∀ p ∈ [(Instr.panelCmdh, (0xAA : Byte)), (.panelPanelSetting, 0x01), (.panelDriverOutput, 0x00),
        (.panelResSetting, 0x03), (.panelBoosterSoftStart1, 0x05), (.panelBoosterSoftStart2, 0x06),
        (.panelBoosterSoftStart3, 0x08), (.panelPll, 0x30), (.panelVcom, 0x50), (.panelTcon, 0x60),
        (.panelResolution, 0x61), (.panelTse, 0x84), (.panelPowerSaving, 0xE3)],
      ∃ t, exec p.1 s = .next t ∧ StartsWrite p.2 (Config.epd6.initPayload p.2) [] s t)
    ∧ ∃ t, exec .panelDeepSleep s = .next t ∧ StartsWrite 0x07 [0xA5] [] s t

/-- Power-on, display-refresh and power-off: each sends its byte with DC = 0, no data byte, and then a busy-wait at once (44_panel_protocol.md R225, R227, R228). -/
def Obligations.WaitingPanelBytesStartTheirWrite : Prop :=
  ∀ s : State, ∀ p ∈ [(Instr.panelPowerOn, (0x04 : Byte)), (.panelDisplayRefresh, 0x12), (.panelPowerOff, 0x02)],
    ∃ t, exec p.1 s = .next t ∧ StartsWrite p.2 [] [.busyWait 0] s t

/-- Write RAM sends 0x10 with DC = 0 and then, in CLEAR, 192,000 fill bytes of the identifier twice, in DISPLAY, the LEN bytes of PACK_RAM from offset 0 on (44_panel_protocol.md R226, 45_session.md R261, R262). -/
def Obligations.WriteRamStartsItsStream : Prop :=
  ∀ s : State,
    (∀ id, s.cmd = some (.clear id) →
      ∃ t, exec .panelWriteRam s = .next t ∧ StartsWrite 0x10 [] [.fill (id ++ id) 192000] s t)
    ∧ (∀ len, s.cmd = some (.display len) → len ≠ 0 →
      ∃ t, exec .panelWriteRam s = .next t ∧ StartsWrite 0x10 [] [.stream 0 len.toNat] s t)

/-- In an environment that answers `ok`, a panel byte other than 0x10 puts its register write on the bus, event by event, and leaves the rest of the script: 2 events for the byte and 2 for each data byte (44_panel_protocol.md R206 to R208). -/
def Obligations.RegisterWriteReachesTheBus : Prop :=
  ∀ (c : Config) (s : State) (b : Byte) (p : List Byte) (after rest : List Op),
    AllOk c → s.run = true → s.hostQ = [] → s.script = .instr (.panel b) :: rest →
    ((b ∈ ([0xAA, 0x01, 0x00, 0x03, 0x05, 0x06, 0x08, 0x30, 0x50, 0x60, 0x61, 0x84, 0xE3] : List Byte)
        ∧ p = c.initPayload b ∧ after = [])
      ∨ (b ∈ ([0x04, 0x12, 0x02] : List Byte) ∧ p = c.extraPayload b ∧ after = [.busyWait 0])
      ∨ (b = 0x07 ∧ p = [0xA5] ∧ after = [])) →
      ∃ t, runWith c (2 + 2 * p.length) s = .next t
        ∧ t = { s with
            dc := t.dc, trace := (writeEvents b p).reverse ++ s.trace, draws := s.draws + (2 + 2 * p.length)
            script := after ++ rest }
        ∧ (t.dc = false ↔ p = [])

/-! ### The sequencer -/

/-- `Acq`, `Set`, `Xfer` and the start of a streamed byte's `SendData` in a script: on `ok` their effect and the next operation, on `err` BusError (44_panel_protocol.md R203 to R207, R211; 45_session.md R261, R262). A fill or stream operation of `n + 1` bytes sets DC to 1 and leaves the transfer of its byte and the `n` bytes after it. -/
def Obligations.LineAndBusEventsAct : Prop :=
  ∀ (s : State) (rest : List Op), s.run = true → s.hostQ = [] →
    (s.script = .acq :: rest → ∃ t, step s = .next t
      ∧ (Config.epd6.ack s.draws = .ok →
          t = { s with own := true, trace := .acq .ok :: s.trace, draws := s.draws + 1, script := rest })
      ∧ (Config.epd6.ack s.draws = .err →
          AbortsWith .busError { s with trace := .acq .err :: s.trace, draws := s.draws + 1 } t))
    ∧ (∀ l v, s.script = .set l v :: rest → ∃ t, step s = .next t
      ∧ (Config.epd6.ack s.draws = .ok →
          t = { setLatch l v s with trace := .set l v .ok :: s.trace, draws := s.draws + 1, script := rest })
      ∧ (Config.epd6.ack s.draws = .err →
          AbortsWith .busError
            { setLatch l (if Config.epd6.latchTaken s.draws then v else latch s l) s with
              trace := .set l v .err :: s.trace, draws := s.draws + 1 } t))
    ∧ (∀ b, s.script = .xfer b :: rest → ∃ t, step s = .next t
      ∧ (Config.epd6.ack s.draws = .ok →
          t = { s with trace := .xfer s.dc b .ok :: s.trace, draws := s.draws + 1, script := rest })
      ∧ (Config.epd6.ack s.draws = .err →
          AbortsWith .busError { s with trace := .xfer s.dc b .err :: s.trace, draws := s.draws + 1 } t))
    ∧ (∀ b n, s.script = .fill b (n + 1) :: rest →
        ∃ t, step s = .next t ∧ StartsData b (if n = 0 then rest else .fill b n :: rest) s t)
    ∧ (∀ k n b, s.script = .stream k (n + 1) :: rest → readByte s.packRam k = some b →
        ∃ t, step s = .next t ∧ StartsData b (if n = 0 then rest else .stream (k + 1) n :: rest) s t)

/-- A hold lets at least its time pass and always completes (44_panel_protocol.md R200, 10_state.md R35). -/
def Obligations.HoldLastsAtLeastItsTime : Prop :=
  ∀ (s : State) (n : Nat) (rest : List Op), s.run = true → s.hostQ = [] → s.script = .hold n :: rest →
    ∃ t, step s = .next t ∧ s.time + n ≤ t.time
      ∧ t = { s with time := t.time, trace := .hold n :: s.trace, draws := s.draws + 1, script := rest }

/-- `BusyWait()` (44_panel_protocol.md R209): a sample that fails is BusError, one that reads idle ends the wait, a busy one after `n_poll` intervals is DeviceTimeout, and before that a hold of 1 ms and the next sample follow. -/
def Obligations.BusyWaitPollsUntilIdle : Prop :=
  ∀ (s : State) (k : Nat) (rest : List Op), s.run = true → s.hostQ = [] →
    (s.script = .busyWait k :: rest → ∃ t, step s = .next t
      ∧ (Config.epd6.sample s.draws = none →
          AbortsWith .busError { s with trace := .sample none :: s.trace, draws := s.draws + 1 } t)
      ∧ (∀ v, Config.epd6.sample s.draws = some v → v = Config.epd6.busyIdleLevel →
          t = { s with busyRaw := v, trace := .sample (some v) :: s.trace, draws := s.draws + 1, script := rest })
      ∧ (∀ v, Config.epd6.sample s.draws = some v → v ≠ Config.epd6.busyIdleLevel → k = Config.epd6.busyTimeoutMs →
          AbortsWith .deviceTimeout
            { s with busyRaw := v, trace := .sample (some v) :: s.trace, draws := s.draws + 1 } t)
      ∧ (∀ v, Config.epd6.sample s.draws = some v → v ≠ Config.epd6.busyIdleLevel → k ≠ Config.epd6.busyTimeoutMs →
          t = { s with
            busyRaw := v, trace := .sample (some v) :: s.trace, draws := s.draws + 1, script := .pollHold k :: rest }))
    ∧ (s.script = .pollHold k :: rest → ∃ t, step s = .next t ∧ s.time + 1 ≤ t.time
      ∧ t = { s with
          time := t.time, trace := .hold 1 :: s.trace, draws := s.draws + 1, script := .busyWait (k + 1) :: rest })

/-- The release tail always runs to its end, whatever its events' outcomes: the three lines are driven to 0 in the order RST, DC, PWR (a latch is 0 after `ok`, its old level or 0 after `err`), the lines are released, and the command ends in CLOSED with its code (44_panel_protocol.md R203, R204, 45_session.md R263). -/
def Obligations.ReleaseTailAlwaysCloses : Prop :=
  ∀ (s : State) (e : Err), s.run = true → s.hostQ = [] →
    s.script = [.relSet .rst, .relSet .dc, .relSet .pwr, .rel, .finish .closed e] →
      ∃ (t : State) (a1 a2 a3 : Ack), runSteps step 5 s = .next t
        ∧ t.trace = .rel :: .set .pwr false a3 :: .set .dc false a2 :: .set .rst false a1 :: s.trace
        ∧ (a1 = .ok → t.rst = false) ∧ (a2 = .ok → t.dc = false) ∧ (a3 = .ok → t.pwr = false)
        ∧ (t.rst = s.rst ∨ t.rst = false) ∧ (t.dc = s.dc ∨ t.dc = false) ∧ (t.pwr = s.pwr ∨ t.pwr = false)
        ∧ t = { completed e s with
            sess := .closed, own := false, rst := t.rst, dc := t.dc, pwr := t.pwr, trace := t.trace, draws := s.draws + 4 }

/-! ### Whole session commands, every outcome `ok` (45_session.md) -/

/-- OPEN from CLOSED sends exactly the events of R260 and ends in IDLE with ERR = 0, the lines owned, RST and PWR at 1. -/
def Obligations.OpenSendsItsEvents : Prop :=
  ∀ (c : Config) (s : State), AllOk c → HoldsCommand 0x10000000 s → s.sess = .closed →
    ∃ t, runWith c ((openEvents c).length + 2) s = .next t
      ∧ t = { completed .ok s with
          sess := .idle, own := true, rst := true, pwr := true, dc := t.dc, busyRaw := c.busyIdleLevel
          trace := (openEvents c).reverse ++ s.trace, draws := s.draws + (openEvents c).length, time := t.time }

/-- CLEAR of a palette identifier from IDLE streams `W/2*H` fill bytes after 0x10, runs the turn-on sequence and ends in IDLE with ERR = 0 (R261). -/
def Obligations.ClearSendsItsEvents : Prop :=
  ∀ (c : Config) (s : State) (id : PalId), AllOk c → c.boosterOk = true →
    id ∈ ([0x0, 0x1, 0x2, 0x3, 0x5, 0x6] : List PalId) → HoldsCommand ((0x1100000 : BitVec 28) ++ id) s →
    s.sess = .idle →
      ∃ t, runWith c ((refreshEvents c (List.replicate (c.W / 2 * c.H) (id ++ id))).length + 2) s = .next t
        ∧ t = { completed .ok s with
            sess := .idle, dc := t.dc, busyRaw := c.busyIdleLevel
            trace := (refreshEvents c (List.replicate (c.W / 2 * c.H) (id ++ id))).reverse ++ s.trace, draws := t.draws }

/-- DISPLAY of `W/2*H` bytes from IDLE streams PACK_RAM in order after 0x10, runs the turn-on sequence and ends in IDLE with ERR = 0; no memory changes (R262). -/
def Obligations.DisplaySendsItsEvents : Prop :=
  ∀ (c : Config) (s : State) (buf : Nat → Byte), AllOk c → c.boosterOk = true → c.W / 2 * c.H < 2 ^ 24 →
    (∀ k < c.W / 2 * c.H, readByte s.packRam k = some (buf k)) →
    HoldsCommand ((0x12 : Byte) ++ BitVec.ofNat 24 (c.W / 2 * c.H)) s → s.sess = .idle →
      ∃ t, runWith c ((refreshEvents c ((List.range (c.W / 2 * c.H)).map buf)).length + 2) s = .next t
        ∧ t = { completed .ok s with
            sess := .idle, dc := t.dc, busyRaw := c.busyIdleLevel
            trace := (refreshEvents c ((List.range (c.W / 2 * c.H)).map buf)).reverse ++ s.trace, draws := t.draws }

/-- CLOSE from IDLE sends power-off with its busy-wait, deep-sleep and the release, and ends in CLOSED with ERR = 0, the latches 0 and the lines released (R263). -/
def Obligations.CloseSendsItsEvents : Prop :=
  ∀ (c : Config) (s : State), AllOk c → HoldsCommand 0x13000000 s → s.sess = .idle →
    ∃ t, runWith c ((closeEvents c).length + 3) s = .next t
      ∧ t = { completed .ok s with
          sess := .closed, own := false, rst := false, dc := false, pwr := false, busyRaw := c.busyIdleLevel
          trace := (closeEvents c).reverse ++ s.trace, draws := t.draws }

/-- With every event `ok` and BUSY never idle, OPEN emits its first eight events, then `n_poll` times a busy sample and a hold and one last sample, and ends in FAILED with DeviceTimeout, the lines owned, RST and PWR at 1; DC, the memories and every other register are unchanged, and no byte was sent (44_panel_protocol.md R209, 45_session.md R260, 60_exceptions.md R306). -/
def Obligations.StuckBusyTimesOut : Prop :=
  ∀ (c : Config) (s : State), (∀ n, c.ack n = .ok) → (∀ n, c.sample n = some (!c.busyIdleLevel)) →
    HoldsCommand 0x10000000 s → s.sess = .closed →
      ∃ t, runWith c (10 + 2 * nPoll c) s = .next t
        ∧ t = { completed .deviceTimeout s with
            sess := .failed, own := true, rst := true, pwr := true, busyRaw := !c.busyIdleLevel
            trace := (wakeEvents c ++ stuckEvents c).reverse ++ s.trace, draws := t.draws, time := t.time }
        ∧ t.trace.length = s.trace.length + (9 + 2 * nPoll c)
        ∧ busBytes t.trace = busBytes s.trace

/-- With every outcome `ok`, every sample idle and `turnon_booster_cmds = [0x06]`, OPEN from CLOSED, CLEAR and DISPLAY from IDLE and CLOSE from IDLE run to RUN = 0 with ERR = 0, and the events they add to the trace are as many as 45_session.md R265 says. -/
def Obligations.TraceLengthsAreAsListed : Prop :=
  ∀ (c : Config) (s : State), AllOk c → c.turnonBooster = [0x06] →
    (s.sess = .closed → HoldsCommand 0x10000000 s →
      EndsAfter c s (1 + 1 + 6 + 1
        + (([0xAA, 0x01, 0x00, 0x03, 0x05, 0x06, 0x08, 0x30, 0x50, 0x60, 0x61, 0x84, 0xE3] : List Byte).map
            fun b => 2 + 2 * (c.initPayload b).length).sum
        + (2 + 2 * (c.extraPayload 0x04).length) + 1))
    ∧ (s.sess = .idle →
      ((∃ id ∈ ([0x0, 0x1, 0x2, 0x3, 0x5, 0x6] : List PalId), HoldsCommand ((0x1100000 : BitVec 28) ++ id) s)
        ∨ (c.W / 2 * c.H < 2 ^ 24 ∧ (∀ k < c.W / 2 * c.H, readByte s.packRam k ≠ none)
          ∧ HoldsCommand ((0x12 : Byte) ++ BitVec.ofNat 24 (c.W / 2 * c.H)) s)) →
      EndsAfter c s (2 + 2 * (c.W / 2 * c.H)
        + ((2 + 2 * (c.extraPayload 0x04).length) + 1 + (2 + 2 * (c.initPayload 0x06).length)
          + (2 + 2 * (c.extraPayload 0x12).length) + 1 + (2 + 2 * (c.extraPayload 0x02).length) + 1)))
    ∧ (s.sess = .idle → HoldsCommand 0x13000000 s →
      EndsAfter c s ((2 + 2 * (c.extraPayload 0x02).length) + 1 + 4 + 4))

/-! ### The whole machine -/

/-- The reset state meets the invariant. -/
def Obligations.ResetMeetsInvariant : Prop := Inv State.reset

/-- Every step keeps the invariant: memories in canonical form and in bounds, RUN and the sequencer in agreement, the session in a state R251 allows, and no byte but the eighteen ever sent with DC = 0 (44_panel_protocol.md R232). -/
def Obligations.StepKeepsInvariant : Prop :=
  ∀ s t : State, Inv s → step s = .next t → Inv t

/-- Under the invariant a step changes SESS only by a transition of 45_session.md R251, or by a core reset. -/
def Obligations.SessionMovesOnlyAsListed : Prop :=
  ∀ s t : State, Inv s → step s = .next t →
    t.sess = s.sess
    ∨ (s.sess, t.sess) ∈ [(Sess.closed, Sess.opening), (.opening, .idle), (.opening, .failed), (.idle, .busy), (.busy, .idle),
        (.busy, .failed), (.busy, .sleeping), (.busy, .closed), (.sleeping, .closed), (.failed, .closed)]
    ∨ ∃ q, s.hostQ = .reset :: q

/-- Every command ends: left alone, a core that no model fault has halted reaches RUN = 0 after finitely many steps (70_reset_and_hazards.md R352), unless it reads a byte nobody wrote, which leaves the command no result (60_exceptions.md R309; that it halts then is log entry 32). -/
def Obligations.EveryCommandEnds : Prop :=
  ∀ s : State, Inv s → s.hostQ = [] → s.script ≠ [.halted] →
    ∃ n t, runSteps step n s = .next t
      ∧ (t.run = false ∨ (t.script = [.halted] ∧ t.faults.unwrittenRead = true))

/-- What no instruction changes, and which instruction may change what: RESULT only NEAREST (10_state.md R24), FRAME_RAM only ORIENT and the dithers, PACK_RAM only PACK, IN_RAM none (R30), the trace only panel command bytes, the session state no pixel command (45_session.md R251), the fault set only ORIENT, the dithers and PACK (60_exceptions.md R309). That no instruction itself changes OWN, BUSY_RAW or the time base, and that only panel bytes emit an event, is the model's choice: a session command's events are later steps of its script (log entries 2 and 18). -/
def Obligations.InstructionsChangeOnlyTheirState : Prop :=
  ∀ (i : Instr) (s t : State), exec i s = .next t →
    t.palette = s.palette ∧ t.inRam = s.inRam ∧ t.inDim = s.inDim ∧ t.ovr = s.ovr ∧ t.lastOp = s.lastOp
    ∧ t.busyRaw = s.busyRaw ∧ t.own = s.own ∧ t.time = s.time ∧ t.hostQ = s.hostQ ∧ t.reads = s.reads
    ∧ (t.result ≠ s.result → ∃ r g b, i = .nearest r g b)
    ∧ (t.frameRam ≠ s.frameRam → i = .orient ∨ i = .ditherFs ∨ i = .ditherAtk)
    ∧ (t.packRam ≠ s.packRam → i = .pack)
    ∧ (t.faults ≠ s.faults → i = .orient ∨ i = .ditherFs ∨ i = .ditherAtk ∨ i = .pack)
    ∧ (t.trace ≠ s.trace ∨ t.draws ≠ s.draws → ∃ b, encode i = .panel b)
    ∧ ((t.rst, t.pwr) ≠ (s.rst, s.pwr) → i = .closeSession)
    ∧ (t.sess ≠ s.sess ∨ t.dc ≠ s.dc →
        (∃ b, encode i = .panel b) ∨ i = .openSession ∨ i = .closeSession ∨ (∃ id, i = .clear id) ∨ ∃ len, i = .display len)

/-- No step writes the palette ROM (10_state.md R29) or takes a fault out of the fault set, not even a core reset (60_exceptions.md R309, 70_reset_and_hazards.md R340); only a host write or a core reset changes IN_RAM (R30) and IN_DIM (R25). -/
def Obligations.RomFaultsAndInputsKeep : Prop :=
  ∀ s t : State, step s = .next t →
    t.palette = s.palette
    ∧ (s.faults.unwrittenRead = true → t.faults.unwrittenRead = true)
    ∧ (s.faults.hostAccess = true → t.faults.hostAccess = true)
    ∧ (s.faults.hostHazard = true → t.faults.hostHazard = true)
    ∧ (t.inRam ≠ s.inRam ∨ t.inDim ≠ s.inDim → (∃ w a v q, s.hostQ = .wr w a v :: q) ∨ ∃ q, s.hostQ = .reset :: q)

/-- A core reset, at any moment, leaves the values of 10_state.md R37, keeps the palette ROM and the fault set, and records `Rel` exactly when the core owned the lines (70_reset_and_hazards.md R340, R341); `State.reset` has the same values, with an empty fault set, which is the model's inference (log entry 1). That the trace, `reads` and `hostQ` go on over a core reset and start empty is the model's choice (log entries 3, 11 and 25). -/
def Obligations.CoreResetLeavesResetValues : Prop :=
  (∀ (s : State) (q : List HostAct), s.hostQ = .reset :: q →
    ∃ t, step s = .next t
      ∧ t = {
          run := false, sess := .closed, err := .ok, ovr := false, lastOp := 0x00, result := 0x00000000
          inDim := 0x00000000, rst := false, dc := false, pwr := false, busyRaw := false, own := false
          palette := s.palette, inRam := [], frameRam := [], packRam := [], cmd := none, script := []
          time := t.time, faults := s.faults, trace := if s.own then .rel :: s.trace else s.trace
          draws := t.draws, hostQ := q, reads := s.reads })
  ∧ State.reset = {
      run := false, sess := .closed, err := .ok, ovr := false, lastOp := 0x00, result := 0x00000000
      inDim := 0x00000000, rst := false, dc := false, pwr := false, busyRaw := false, own := false
      palette := Config.epd6.palette, inRam := [], frameRam := [], packRam := [], cmd := none, script := []
      time := State.reset.time, faults := ⟨false, false, false⟩, trace := [], draws := State.reset.draws
      hostQ := [], reads := [] }
end

