-- ==== Sys2Proof/Laws/Memory.lean ====
section
/-! SUPPORT. What the memory operations do: a byte read after a byte written, the canonical form every write keeps, pixels read after pixels written, little-endian accesses, and the one induction over `loop`. -/

namespace Sys2Proof.Machine

/-! ### Bytes -/

@[simp] theorem readByte_nil (a : Nat) : readByte [] a = none := rfl

theorem readByte_writeByte_same (m : Mem) (a : Nat) (v : Byte) : readByte (writeByte m a v) a = some v := by
  induction m with
  | nil => simp [writeByte, readByte]
  | cons h m ih =>
    obtain ⟨k, b⟩ := h
    simp only [writeByte]
    split
    · simp [readByte]
    · split
      · simp [readByte]
      · rename_i h1 h2
        rw [readByte, if_neg (fun e => h2 e.symm)]
        exact ih

theorem readByte_writeByte_other (m : Mem) {a a' : Nat} (v : Byte) (h : a' ≠ a) :
    readByte (writeByte m a v) a' = readByte m a' := by
  induction m with
  | nil => simp [writeByte, readByte, Ne.symm h]
  | cons x m ih =>
    obtain ⟨k, b⟩ := x
    simp only [writeByte]
    split
    · simp [readByte, Ne.symm h]
    · split
      · rename_i h1 h2
        subst h2
        simp [readByte, Ne.symm h]
      · simp only [readByte]
        split
        · rfl
        · exact ih

theorem readByte_writeByte (m : Mem) (a a' : Nat) (v : Byte) :
    readByte (writeByte m a v) a' = if a' = a then some v else readByte m a' := by
  split
  · rename_i h
    rw [h, readByte_writeByte_same]
  · exact readByte_writeByte_other m v ‹_›

theorem mem_keys_writeByte {m : Mem} {a k : Nat} {v : Byte} (h : k ∈ (writeByte m a v).map Prod.fst) :
    k = a ∨ k ∈ m.map Prod.fst := by
  induction m with
  | nil => simpa [writeByte] using h
  | cons x m ih =>
    obtain ⟨k', b⟩ := x
    simp only [writeByte] at h
    split at h
    · simpa using h
    · split at h
      · rename_i h1 h2
        subst h2
        simp only [List.map_cons, List.mem_cons] at h ⊢
        tauto
      · simp only [List.map_cons, List.mem_cons] at h ⊢
        rcases h with h | h
        · exact .inr (.inl h)
        · rcases ih h with h | h
          · exact .inl h
          · exact .inr (.inr h)

/-- A byte written inside the memory keeps the canonical form. -/
theorem wf_writeByte {m : Mem} {size a : Nat} (v : Byte) (h : Mem.wf m size) (ha : a < size) :
    Mem.wf (writeByte m a v) size := by
  refine ⟨?_, fun k hk => ?_⟩
  · have hp := h.1
    clear h
    induction m with
    | nil => simp [writeByte]
    | cons x m ih =>
      obtain ⟨k, b⟩ := x
      simp only [List.map_cons, List.pairwise_cons] at hp
      simp only [writeByte]
      split
      · rename_i hlt
        simp only [List.map_cons, List.pairwise_cons, List.mem_cons]
        refine ⟨fun y hy => ?_, hp⟩
        rcases hy with rfl | hy
        · exact hlt
        · exact lt_trans hlt (hp.1 y hy)
      · split
        · rename_i h1 h2
          subst h2
          simpa using hp
        · rename_i h1 h2
          simp only [List.map_cons, List.pairwise_cons]
          refine ⟨fun y hy => ?_, ih hp.2⟩
          rcases mem_keys_writeByte hy with rfl | hy
          · omega
          · exact hp.1 y hy
  · rcases mem_keys_writeByte hk with rfl | hk
    · exact ha
    · exact h.2 k hk

theorem readByte_eq_none_iff (m : Mem) (a : Nat) : readByte m a = none ↔ a ∉ m.map Prod.fst := by
  induction m with
  | nil => simp
  | cons x m ih =>
    obtain ⟨k, b⟩ := x
    simp only [readByte]
    split
    · simp_all
    · simp_all [eq_comm]

/-- In a memory of canonical form nothing is written at or past its size. -/
theorem readByte_of_size_le {m : Mem} {size a : Nat} (h : Mem.wf m size) (ha : size ≤ a) : readByte m a = none := by
  rw [readByte_eq_none_iff]
  intro hk
  exact absurd (h.2 a hk) (by omega)

theorem wf_nil (size : Nat) : Mem.wf [] size := by simp [Mem.wf]

theorem readByte_map_cell (b : Byte) (l : List Nat) (a : Nat) (h : a ∈ l) :
    readByte (l.map fun k => (k, b)) a = some b := by
  induction l with
  | nil => simp at h
  | cons k l ih =>
    simp only [List.map_cons, readByte]
    split
    · rfl
    · rename_i hne
      exact ih (by simpa [Ne.symm hne] using h)

theorem readByte_filled (b : Byte) {n a : Nat} (h : a < n) : readByte (filled b n) a = some b :=
  readByte_map_cell b _ a (by simpa using h)

theorem allWritten_filled (b : Byte) (n : Nat) : AllWritten (filled b n) n := by
  intro a ha
  rw [readByte_filled b ha]
  simp

theorem wf_filled (b : Byte) (n : Nat) : Mem.wf (filled b n) n := by
  simp [Mem.wf, filled, Function.comp_def, List.pairwise_lt_range]

/-! ### Pixels -/

theorem pixOffset_lt {w h x y : Nat} (hx : x < w) (hy : y < h) : pixOffset w x y + 2 < 3 * w * h := by
  have : y * w + x < h * w := by nlinarith
  unfold pixOffset
  nlinarith

theorem pixOffset_inj {w x y x' y' : Nat} (hx : x < w) (hx' : x' < w) (h : y * w + x = y' * w + x') :
    x = x' ∧ y = y' := by
  have h1 : (y * w + x) % w = (y' * w + x') % w := by rw [h]
  have h2 : (y * w + x) / w = (y' * w + x') / w := by rw [h]
  have hw : 0 < w := by omega
  rw [Nat.mul_add_mod', Nat.mul_add_mod', Nat.mod_eq_of_lt hx, Nat.mod_eq_of_lt hx'] at h1
  rw [mul_comm y w, mul_comm y' w, Nat.mul_add_div hw, Nat.mul_add_div hw, Nat.div_eq_of_lt hx, Nat.div_eq_of_lt hx'] at h2
  omega

/-- A pixel write changes the three bytes of the pixel and nothing else. -/
theorem readByte_writePix (m : Mem) (w x y : Nat) (p : Rgb) (a : Nat) :
    readByte (writePix m w x y p) a =
      if a = pixOffset w x y + 2 then some p.b
      else if a = pixOffset w x y + 1 then some p.g
      else if a = pixOffset w x y then some p.r
      else readByte m a := by
  simp only [writePix, readByte_writeByte]

theorem readPix_writePix_same (m : Mem) (w x y : Nat) (p : Rgb) : readPix (writePix m w x y p) w x y = some p := by
  simp [readPix, readByte_writePix]

theorem readPix_writePix_other (m : Mem) {w x y x' y' : Nat} (p : Rgb) (hx : x < w) (hx' : x' < w)
    (h : ¬(x' = x ∧ y' = y)) : readPix (writePix m w x y p) w x' y' = readPix m w x' y' := by
  have hne : y' * w + x' ≠ y * w + x := fun e => h (by have := pixOffset_inj hx' hx e; exact this)
  have e (j : Nat) (hj : j < 3) :
      readByte (writePix m w x y p) (pixOffset w x' y' + j) = readByte m (pixOffset w x' y' + j) := by
    rw [readByte_writePix]
    unfold pixOffset
    rw [if_neg (by omega), if_neg (by omega), if_neg (by omega)]
  have e0 := e 0 (by omega)
  simp only [Nat.add_zero] at e0
  simp only [readPix, e0, e 1 (by omega), e 2 (by omega)]

theorem readPix_filled (b : Byte) {w h x y : Nat} (hx : x < w) (hy : y < h) :
    readPix (filled b (3 * w * h)) w x y = some ⟨b, b, b⟩ := by
  have hb := pixOffset_lt hx hy
  simp only [readPix, readByte_filled b (show pixOffset w x y < 3 * w * h by omega),
    readByte_filled b (show pixOffset w x y + 1 < 3 * w * h by omega), readByte_filled b hb]

theorem wf_writePix {m : Mem} {w h x y : Nat} (p : Rgb) (hm : Mem.wf m (3 * w * h)) (hx : x < w) (hy : y < h) :
    Mem.wf (writePix m w x y p) (3 * w * h) := by
  have hb := pixOffset_lt hx hy
  exact wf_writeByte _ (wf_writeByte _ (wf_writeByte _ hm (by omega)) (by omega)) (by omega)

/-- The three bytes of a pixel that reads are written. -/
theorem readPix_eq_some {m : Mem} {w x y : Nat} {p : Rgb} :
    readPix m w x y = some p ↔
      readByte m (pixOffset w x y) = some p.r ∧ readByte m (pixOffset w x y + 1) = some p.g
        ∧ readByte m (pixOffset w x y + 2) = some p.b := by
  unfold readPix
  constructor
  · intro h
    split at h
    · rename_i r g b h1 h2 h3
      cases h
      exact ⟨h1, h2, h3⟩
    · cases h
  · rintro ⟨h1, h2, h3⟩
    rw [h1, h2, h3]

/-- A pixel does not read exactly when one of its bytes was never written. -/
theorem readPix_eq_none {m : Mem} {w x y : Nat} :
    readPix m w x y = none ↔ ∃ j < 3, readByte m (pixOffset w x y + j) = none := by
  unfold readPix
  constructor
  · intro h
    split at h
    · cases h
    · rename_i hn
      by_contra hc
      push Not at hc
      obtain ⟨r, hr⟩ := Option.ne_none_iff_exists'.mp (hc 0 (by omega))
      obtain ⟨g, hg⟩ := Option.ne_none_iff_exists'.mp (hc 1 (by omega))
      obtain ⟨b, hb⟩ := Option.ne_none_iff_exists'.mp (hc 2 (by omega))
      exact hn r g b hr hg hb
  · rintro ⟨j, hj, h⟩
    split
    · rename_i r g b h1 h2 h3
      interval_cases j
      · rw [Nat.add_zero, h1] at h
        cases h
      · rw [h2] at h
        cases h
      · rw [h3] at h
        cases h
    · rfl

/-! ### Loops -/

/-- An invariant of the body is an invariant of the loop. -/
theorem loop_invariant {α : Type} {body : Nat → α → Option α} (P : Nat → α → Prop) {n i : Nat} {x y : α}
    (step : ∀ j u v, i ≤ j → j < i + n → P j u → body j u = some v → P (j + 1) v)
    (h0 : P i x) (h : loop body n i x = some y) : P (i + n) y := by
  induction n generalizing i x with
  | zero =>
    cases h
    exact h0
  | succ n ih =>
    simp only [loop] at h
    split at h
    · cases h
    · rename_i z hz
      have := ih (fun j u v h1 h2 => step j u v (by omega) (by omega)) (step i x z (by omega) (by omega) h0 hz) h
      rwa [Nat.add_right_comm, Nat.add_assoc] at this

/-- A loop whose body answers under an invariant answers. -/
theorem loop_total {α : Type} {body : Nat → α → Option α} (P : Nat → α → Prop) {n i : Nat} {x : α}
    (step : ∀ j u, i ≤ j → j < i + n → P j u → ∃ v, body j u = some v ∧ P (j + 1) v) (h0 : P i x) :
    ∃ y, loop body n i x = some y ∧ P (i + n) y := by
  induction n generalizing i x with
  | zero => exact ⟨x, rfl, h0⟩
  | succ n ih =>
    obtain ⟨z, hz, pz⟩ := step i x (by omega) (by omega) h0
    obtain ⟨y, hy, py⟩ := ih (fun j u h1 h2 => step j u (by omega) (by omega)) pz
    refine ⟨y, by simpa only [loop, hz] using hy, ?_⟩
    rwa [Nat.add_right_comm, Nat.add_assoc] at py

/-! ### Host accesses (20_memory.md R62) -/

theorem readByte_writeLE_below (m : Mem) {a a' : Nat} (v n : Nat) (h : a' < a) :
    readByte (writeLE m a v n) a' = readByte m a' := by
  induction n generalizing m a v with
  | zero => rfl
  | succ n ih => rw [writeLE, ih _ _ (by omega), readByte_writeByte_other _ _ (by omega)]

theorem readByte_writeLE_above (m : Mem) {a a' : Nat} (v n : Nat) (h : a + n ≤ a') :
    readByte (writeLE m a v n) a' = readByte m a' := by
  induction n generalizing m a v with
  | zero => rfl
  | succ n ih => rw [writeLE, ih _ _ (by omega), readByte_writeByte_other _ _ (by omega)]

theorem readByte_writeLE_inside (m : Mem) (a v : Nat) {n j : Nat} (h : j < n) :
    readByte (writeLE m a v n) (a + j) = some (BitVec.ofNat 8 (v / 256 ^ j)) := by
  induction n generalizing m a v j with
  | zero => omega
  | succ n ih =>
    rw [writeLE]
    cases j with
    | zero => rw [readByte_writeLE_below _ _ _ (by omega), Nat.add_zero, readByte_writeByte_same, pow_zero, Nat.div_one]
    | succ j =>
      rw [show a + (j + 1) = a + 1 + j by omega, ih _ _ _ (by omega), Nat.div_div_eq_div_mul, pow_succ, mul_comm 256]

theorem wf_writeLE {m : Mem} {size a : Nat} (v n : Nat) (h : Mem.wf m size) (ha : a + n ≤ size) :
    Mem.wf (writeLE m a v n) size := by
  induction n generalizing m a v with
  | zero => exact h
  | succ n ih => exact ih _ (wf_writeByte _ h (by omega)) (by omega)

end Sys2Proof.Machine
end

