-- ==== Sys2Proof/Laws/HostPort.lean ====
section
/-! SUPPORT. The host port: when an access is allowed, and what a little-endian read gives, also right after a write. -/

namespace Sys2Proof.Machine

/-- In the register window the allowed accesses are the aligned 32-bit ones. -/
theorem accessOk_regs {c : Config} {w : Width} {a : BitVec 24} (h : a.toNat < 0x400000) :
    accessOk c w a = true ↔ a.toNat % widthBytes w = 0 ∧ w = .w32 := by
  simp [accessOk, windowOf, h, aligned]

/-- In a memory window they are the aligned ones that end inside the memory. -/
theorem accessOk_mem {c : Config} {w : Width} {a : BitVec 24} (h : 0x400000 ≤ a.toNat) :
    accessOk c w a = true ↔
      a.toNat % widthBytes w = 0 ∧ offsetOf a + widthBytes w ≤ windowSize c (windowOf a) := by
  have hne : windowOf a ≠ .regs := by
    unfold windowOf
    rw [if_neg (by omega)]
    split <;> [simp; split <;> simp]
  cases hw : windowOf a <;> simp_all [accessOk, aligned]

theorem windowOf_inRam {a : BitVec 24} (h : 0x400000 ≤ a.toNat) (h' : a.toNat < 0x800000) : windowOf a = .inRam := by
  rw [windowOf, if_neg (by omega), if_pos h']

theorem windowOf_frameRam {a : BitVec 24} (h : 0x800000 ≤ a.toNat) (h' : a.toNat < 0xC00000) :
    windowOf a = .frameRam := by
  rw [windowOf, if_neg (by omega), if_neg (by omega), if_pos h']

theorem windowOf_packRam {a : BitVec 24} (h : 0xC00000 ≤ a.toNat) : windowOf a = .packRam := by
  rw [windowOf, if_neg (by omega), if_neg (by omega), if_neg (by omega)]

/-- What the port makes of an address in a window of R61. -/
theorem hostWindow_address {base size : Nat} {mem : State → Mem} {a : BitVec 24} (h : HostWindow base size mem)
    (h1 : base ≤ a.toNat) (h2 : a.toNat < base + 0x400000) :
    windowOf a ≠ .regs ∧ windowSize Config.epd6 (windowOf a) = size ∧ offsetOf a = a.toNat - base
      ∧ (∀ s, windowMem s (windowOf a) = mem s) ∧ 0x400000 ≤ a.toNat := by
  unfold offsetOf
  rcases h with ⟨rfl, rfl, rfl⟩ | ⟨rfl, rfl, rfl⟩ | ⟨rfl, rfl, rfl⟩
  · rw [windowOf_inRam h1 (by omega)]
    exact ⟨by simp, rfl, by omega, fun _ => rfl, by omega⟩
  · rw [windowOf_frameRam h1 (by omega)]
    exact ⟨by simp, rfl, by omega, fun _ => rfl, by omega⟩
  · rw [windowOf_packRam h1]
    exact ⟨by simp, rfl, by omega, fun _ => rfl, by omega⟩

/-- The host's queue is no part of a memory. -/
theorem hostWindow_hostQ {base size : Nat} {mem : State → Mem} (h : HostWindow base size mem) (s : State)
    (q : List HostAct) : mem { s with hostQ := q } = mem s := by
  rcases h with ⟨_, _, rfl⟩ | ⟨_, _, rfl⟩ | ⟨_, _, rfl⟩ <;> rfl

theorem widthBytes_of_hostWidth {w : Width} {n : Nat} (h : HostWidth w n) : widthBytes w = n := by
  rcases h with ⟨rfl, rfl⟩ | ⟨rfl, rfl⟩ | ⟨rfl, rfl⟩ <;> rfl

theorem hostRead_wrong {c : Config} {w : Width} {a : BitVec 24} {s : State} (h : accessOk c w a = false) :
    hostRead c w a s = addFault .hostAccess s := by simp [hostRead, h]

theorem hostWrite_wrong {c : Config} {w : Width} {a : BitVec 24} {v : Word32} {s : State} (h : accessOk c w a = false) :
    hostWrite c w a v s = addFault .hostAccess s := by simp [hostWrite, h]

/-- A legal access to a memory while RUN = 1. -/
theorem hostRead_hazard {c : Config} {w : Width} {a : BitVec 24} {s : State}
    (h : accessOk c w a = true) (hw : windowOf a ≠ .regs) (hr : s.run = true) :
    hostRead c w a s = haltCommand .hostHazard s := by
  cases hx : windowOf a <;> simp_all [hostRead]

theorem hostWrite_hazard {c : Config} {w : Width} {a : BitVec 24} {v : Word32} {s : State}
    (h : accessOk c w a = true) (hw : windowOf a ≠ .regs) (hr : s.run = true) :
    hostWrite c w a v s = haltCommand .hostHazard s := by
  cases hx : windowOf a <;> simp_all [hostWrite]

/-- A legal memory write with RUN = 0. -/
theorem hostWrite_mem {c : Config} {w : Width} {a : BitVec 24} {v : Word32} {s : State}
    (h : accessOk c w a = true) (hw : windowOf a ≠ .regs) (hr : s.run = false) :
    hostWrite c w a v s =
      setWindowMem (windowOf a) (writeLE (windowMem s (windowOf a)) (offsetOf a) v.toNat (widthBytes w)) s := by
  cases hx : windowOf a <;> simp_all [hostWrite]

/-- A legal memory read with RUN = 0 of written bytes. -/
theorem hostRead_mem {c : Config} {w : Width} {a : BitVec 24} {v : Nat} {s : State}
    (h : accessOk c w a = true) (hw : windowOf a ≠ .regs) (hr : s.run = false)
    (hv : readLE (windowMem s (windowOf a)) (offsetOf a) (widthBytes w) = some v) :
    hostRead c w a s = answer (BitVec.ofNat 32 v) s := by
  cases hx : windowOf a <;> simp_all [hostRead]

/-- A legal memory read with RUN = 0 of a byte never written. -/
theorem hostRead_unwritten {c : Config} {w : Width} {a : BitVec 24} {s : State}
    (h : accessOk c w a = true) (hw : windowOf a ≠ .regs) (hr : s.run = false)
    (hv : readLE (windowMem s (windowOf a)) (offsetOf a) (widthBytes w) = none) :
    hostRead c w a s = addFault .unwrittenRead s := by
  cases hx : windowOf a <;> simp_all [hostRead]

/-- A little-endian read fails exactly when one of its bytes was never written. -/
theorem readLE_eq_none {m : Mem} {a n : Nat} : readLE m a n = none ↔ ∃ j < n, readByte m (a + j) = none := by
  induction n generalizing a with
  | zero => simp [readLE]
  | succ n ih =>
    unfold readLE
    constructor
    · intro h
      split at h
      · cases h
      · rename_i hn
        by_contra hc
        push Not at hc
        obtain ⟨b, hb⟩ := Option.ne_none_iff_exists'.mp (hc 0 (by omega))
        cases hr : readLE m (a + 1) n with
        | some v => exact hn b v hb hr
        | none =>
          obtain ⟨j, hj, hz⟩ := ih.mp hr
          exact hc (j + 1) (by omega) (by rw [← hz]; congr 1; omega)
    · rintro ⟨j, hj, hz⟩
      split
      · rename_i b v hb hv
        cases j with
        | zero =>
          rw [Nat.add_zero, hb] at hz
          cases hz
        | succ j =>
          have : readLE m (a + 1) n = none := ih.mpr ⟨j, by omega, by rw [← hz]; congr 1; omega⟩
          rw [hv] at this
          cases this
      · rfl

/-- A read right after a write of the same bytes gives the value, cut to its width. -/
theorem readLE_writeLE (m : Mem) (a v n : Nat) : readLE (writeLE m a v n) a n = some (v % 256 ^ n) := by
  induction n generalizing m a v with
  | zero => simp [readLE, Nat.mod_one]
  | succ n ih =>
    rw [writeLE, readLE, ih, readByte_writeLE_below _ _ _ (by omega), readByte_writeByte_same]
    simp only [BitVec.toNat_ofNat, Option.some.injEq]
    rw [show 256 ^ (n + 1) = 256 * 256 ^ n by rw [Nat.pow_succ, Nat.mul_comm], Nat.mod_mul]

end Sys2Proof.Machine
end

