-- ==== Sys2Proof/Laws/State.lean ====
section
/-! SUPPORT. For every named update of State, what each field holds afterwards; every lemma is true by rfl. -/

namespace Sys2Proof.Machine

/-! ### `finish` -/

@[simp] theorem finish_run (x : Sess) (e : Err) (s : State) : (finish x e s).run = false := rfl
@[simp] theorem finish_sess (x : Sess) (e : Err) (s : State) : (finish x e s).sess = x := rfl
@[simp] theorem finish_err (x : Sess) (e : Err) (s : State) : (finish x e s).err = e := rfl
@[simp] theorem finish_ovr (x : Sess) (e : Err) (s : State) : (finish x e s).ovr = s.ovr := rfl
@[simp] theorem finish_lastOp (x : Sess) (e : Err) (s : State) : (finish x e s).lastOp = s.lastOp := rfl
@[simp] theorem finish_result (x : Sess) (e : Err) (s : State) : (finish x e s).result = s.result := rfl
@[simp] theorem finish_inDim (x : Sess) (e : Err) (s : State) : (finish x e s).inDim = s.inDim := rfl
@[simp] theorem finish_rst (x : Sess) (e : Err) (s : State) : (finish x e s).rst = s.rst := rfl
@[simp] theorem finish_dc (x : Sess) (e : Err) (s : State) : (finish x e s).dc = s.dc := rfl
@[simp] theorem finish_pwr (x : Sess) (e : Err) (s : State) : (finish x e s).pwr = s.pwr := rfl
@[simp] theorem finish_busyRaw (x : Sess) (e : Err) (s : State) : (finish x e s).busyRaw = s.busyRaw := rfl
@[simp] theorem finish_own (x : Sess) (e : Err) (s : State) : (finish x e s).own = s.own := rfl
@[simp] theorem finish_palette (x : Sess) (e : Err) (s : State) : (finish x e s).palette = s.palette := rfl
@[simp] theorem finish_inRam (x : Sess) (e : Err) (s : State) : (finish x e s).inRam = s.inRam := rfl
@[simp] theorem finish_frameRam (x : Sess) (e : Err) (s : State) : (finish x e s).frameRam = s.frameRam := rfl
@[simp] theorem finish_packRam (x : Sess) (e : Err) (s : State) : (finish x e s).packRam = s.packRam := rfl
@[simp] theorem finish_cmd (x : Sess) (e : Err) (s : State) : (finish x e s).cmd = none := rfl
@[simp] theorem finish_script (x : Sess) (e : Err) (s : State) : (finish x e s).script = [] := rfl
@[simp] theorem finish_time (x : Sess) (e : Err) (s : State) : (finish x e s).time = s.time := rfl
@[simp] theorem finish_trace (x : Sess) (e : Err) (s : State) : (finish x e s).trace = s.trace := rfl
@[simp] theorem finish_draws (x : Sess) (e : Err) (s : State) : (finish x e s).draws = s.draws := rfl
@[simp] theorem finish_hostQ (x : Sess) (e : Err) (s : State) : (finish x e s).hostQ = s.hostQ := rfl
@[simp] theorem finish_reads (x : Sess) (e : Err) (s : State) : (finish x e s).reads = s.reads := rfl
@[simp] theorem finish_faults (x : Sess) (e : Err) (s : State) : (finish x e s).faults = s.faults := rfl

/-! ### `complete` -/

@[simp] theorem complete_run (e : Err) (s : State) : (complete e s).run = false := rfl
@[simp] theorem complete_sess (e : Err) (s : State) : (complete e s).sess = s.sess := rfl
@[simp] theorem complete_err (e : Err) (s : State) : (complete e s).err = e := rfl
@[simp] theorem complete_ovr (e : Err) (s : State) : (complete e s).ovr = s.ovr := rfl
@[simp] theorem complete_lastOp (e : Err) (s : State) : (complete e s).lastOp = s.lastOp := rfl
@[simp] theorem complete_result (e : Err) (s : State) : (complete e s).result = s.result := rfl
@[simp] theorem complete_inDim (e : Err) (s : State) : (complete e s).inDim = s.inDim := rfl
@[simp] theorem complete_rst (e : Err) (s : State) : (complete e s).rst = s.rst := rfl
@[simp] theorem complete_dc (e : Err) (s : State) : (complete e s).dc = s.dc := rfl
@[simp] theorem complete_pwr (e : Err) (s : State) : (complete e s).pwr = s.pwr := rfl
@[simp] theorem complete_busyRaw (e : Err) (s : State) : (complete e s).busyRaw = s.busyRaw := rfl
@[simp] theorem complete_own (e : Err) (s : State) : (complete e s).own = s.own := rfl
@[simp] theorem complete_palette (e : Err) (s : State) : (complete e s).palette = s.palette := rfl
@[simp] theorem complete_inRam (e : Err) (s : State) : (complete e s).inRam = s.inRam := rfl
@[simp] theorem complete_frameRam (e : Err) (s : State) : (complete e s).frameRam = s.frameRam := rfl
@[simp] theorem complete_packRam (e : Err) (s : State) : (complete e s).packRam = s.packRam := rfl
@[simp] theorem complete_cmd (e : Err) (s : State) : (complete e s).cmd = none := rfl
@[simp] theorem complete_script (e : Err) (s : State) : (complete e s).script = [] := rfl
@[simp] theorem complete_time (e : Err) (s : State) : (complete e s).time = s.time := rfl
@[simp] theorem complete_trace (e : Err) (s : State) : (complete e s).trace = s.trace := rfl
@[simp] theorem complete_draws (e : Err) (s : State) : (complete e s).draws = s.draws := rfl
@[simp] theorem complete_hostQ (e : Err) (s : State) : (complete e s).hostQ = s.hostQ := rfl
@[simp] theorem complete_reads (e : Err) (s : State) : (complete e s).reads = s.reads := rfl
@[simp] theorem complete_faults (e : Err) (s : State) : (complete e s).faults = s.faults := rfl

/-! ### `accept` -/

@[simp] theorem accept_run (v : Word32) (s : State) : (accept v s).run = true := rfl
@[simp] theorem accept_sess (v : Word32) (s : State) : (accept v s).sess = s.sess := rfl
@[simp] theorem accept_err (v : Word32) (s : State) : (accept v s).err = s.err := rfl
@[simp] theorem accept_ovr (v : Word32) (s : State) : (accept v s).ovr = s.ovr := rfl
@[simp] theorem accept_lastOp (v : Word32) (s : State) : (accept v s).lastOp = opcOf v := rfl
@[simp] theorem accept_result (v : Word32) (s : State) : (accept v s).result = s.result := rfl
@[simp] theorem accept_inDim (v : Word32) (s : State) : (accept v s).inDim = s.inDim := rfl
@[simp] theorem accept_rst (v : Word32) (s : State) : (accept v s).rst = s.rst := rfl
@[simp] theorem accept_dc (v : Word32) (s : State) : (accept v s).dc = s.dc := rfl
@[simp] theorem accept_pwr (v : Word32) (s : State) : (accept v s).pwr = s.pwr := rfl
@[simp] theorem accept_busyRaw (v : Word32) (s : State) : (accept v s).busyRaw = s.busyRaw := rfl
@[simp] theorem accept_own (v : Word32) (s : State) : (accept v s).own = s.own := rfl
@[simp] theorem accept_palette (v : Word32) (s : State) : (accept v s).palette = s.palette := rfl
@[simp] theorem accept_inRam (v : Word32) (s : State) : (accept v s).inRam = s.inRam := rfl
@[simp] theorem accept_frameRam (v : Word32) (s : State) : (accept v s).frameRam = s.frameRam := rfl
@[simp] theorem accept_packRam (v : Word32) (s : State) : (accept v s).packRam = s.packRam := rfl
@[simp] theorem accept_cmd (v : Word32) (s : State) : (accept v s).cmd = none := rfl
@[simp] theorem accept_script (v : Word32) (s : State) : (accept v s).script = [.instr (.cmd v)] := rfl
@[simp] theorem accept_time (v : Word32) (s : State) : (accept v s).time = s.time := rfl
@[simp] theorem accept_trace (v : Word32) (s : State) : (accept v s).trace = s.trace := rfl
@[simp] theorem accept_draws (v : Word32) (s : State) : (accept v s).draws = s.draws := rfl
@[simp] theorem accept_hostQ (v : Word32) (s : State) : (accept v s).hostQ = s.hostQ := rfl
@[simp] theorem accept_reads (v : Word32) (s : State) : (accept v s).reads = s.reads := rfl
@[simp] theorem accept_faults (v : Word32) (s : State) : (accept v s).faults = s.faults := rfl

/-! ### `emit` -/

@[simp] theorem emit_run (e : Event) (s : State) : (emit e s).run = s.run := rfl
@[simp] theorem emit_sess (e : Event) (s : State) : (emit e s).sess = s.sess := rfl
@[simp] theorem emit_err (e : Event) (s : State) : (emit e s).err = s.err := rfl
@[simp] theorem emit_ovr (e : Event) (s : State) : (emit e s).ovr = s.ovr := rfl
@[simp] theorem emit_lastOp (e : Event) (s : State) : (emit e s).lastOp = s.lastOp := rfl
@[simp] theorem emit_result (e : Event) (s : State) : (emit e s).result = s.result := rfl
@[simp] theorem emit_inDim (e : Event) (s : State) : (emit e s).inDim = s.inDim := rfl
@[simp] theorem emit_rst (e : Event) (s : State) : (emit e s).rst = s.rst := rfl
@[simp] theorem emit_dc (e : Event) (s : State) : (emit e s).dc = s.dc := rfl
@[simp] theorem emit_pwr (e : Event) (s : State) : (emit e s).pwr = s.pwr := rfl
@[simp] theorem emit_busyRaw (e : Event) (s : State) : (emit e s).busyRaw = s.busyRaw := rfl
@[simp] theorem emit_own (e : Event) (s : State) : (emit e s).own = s.own := rfl
@[simp] theorem emit_palette (e : Event) (s : State) : (emit e s).palette = s.palette := rfl
@[simp] theorem emit_inRam (e : Event) (s : State) : (emit e s).inRam = s.inRam := rfl
@[simp] theorem emit_frameRam (e : Event) (s : State) : (emit e s).frameRam = s.frameRam := rfl
@[simp] theorem emit_packRam (e : Event) (s : State) : (emit e s).packRam = s.packRam := rfl
@[simp] theorem emit_cmd (e : Event) (s : State) : (emit e s).cmd = s.cmd := rfl
@[simp] theorem emit_script (e : Event) (s : State) : (emit e s).script = s.script := rfl
@[simp] theorem emit_time (e : Event) (s : State) : (emit e s).time = s.time := rfl
@[simp] theorem emit_trace (e : Event) (s : State) : (emit e s).trace = e :: s.trace := rfl
@[simp] theorem emit_draws (e : Event) (s : State) : (emit e s).draws = s.draws + 1 := rfl
@[simp] theorem emit_hostQ (e : Event) (s : State) : (emit e s).hostQ = s.hostQ := rfl
@[simp] theorem emit_reads (e : Event) (s : State) : (emit e s).reads = s.reads := rfl
@[simp] theorem emit_faults (e : Event) (s : State) : (emit e s).faults = s.faults := rfl

/-! ### `release` -/

@[simp] theorem release_run (s : State) : (release s).run = s.run := rfl
@[simp] theorem release_sess (s : State) : (release s).sess = s.sess := rfl
@[simp] theorem release_err (s : State) : (release s).err = s.err := rfl
@[simp] theorem release_ovr (s : State) : (release s).ovr = s.ovr := rfl
@[simp] theorem release_lastOp (s : State) : (release s).lastOp = s.lastOp := rfl
@[simp] theorem release_result (s : State) : (release s).result = s.result := rfl
@[simp] theorem release_inDim (s : State) : (release s).inDim = s.inDim := rfl
@[simp] theorem release_rst (s : State) : (release s).rst = s.rst := rfl
@[simp] theorem release_dc (s : State) : (release s).dc = s.dc := rfl
@[simp] theorem release_pwr (s : State) : (release s).pwr = s.pwr := rfl
@[simp] theorem release_busyRaw (s : State) : (release s).busyRaw = s.busyRaw := rfl
@[simp] theorem release_own (s : State) : (release s).own = false := rfl
@[simp] theorem release_palette (s : State) : (release s).palette = s.palette := rfl
@[simp] theorem release_inRam (s : State) : (release s).inRam = s.inRam := rfl
@[simp] theorem release_frameRam (s : State) : (release s).frameRam = s.frameRam := rfl
@[simp] theorem release_packRam (s : State) : (release s).packRam = s.packRam := rfl
@[simp] theorem release_cmd (s : State) : (release s).cmd = s.cmd := rfl
@[simp] theorem release_script (s : State) : (release s).script = s.script := rfl
@[simp] theorem release_time (s : State) : (release s).time = s.time := rfl
@[simp] theorem release_trace (s : State) : (release s).trace = .rel :: s.trace := rfl
@[simp] theorem release_draws (s : State) : (release s).draws = s.draws + 1 := rfl
@[simp] theorem release_hostQ (s : State) : (release s).hostQ = s.hostQ := rfl
@[simp] theorem release_reads (s : State) : (release s).reads = s.reads := rfl
@[simp] theorem release_faults (s : State) : (release s).faults = s.faults := rfl

/-! ### `answer` -/

@[simp] theorem answer_run (v : Word32) (s : State) : (answer v s).run = s.run := rfl
@[simp] theorem answer_sess (v : Word32) (s : State) : (answer v s).sess = s.sess := rfl
@[simp] theorem answer_err (v : Word32) (s : State) : (answer v s).err = s.err := rfl
@[simp] theorem answer_ovr (v : Word32) (s : State) : (answer v s).ovr = s.ovr := rfl
@[simp] theorem answer_lastOp (v : Word32) (s : State) : (answer v s).lastOp = s.lastOp := rfl
@[simp] theorem answer_result (v : Word32) (s : State) : (answer v s).result = s.result := rfl
@[simp] theorem answer_inDim (v : Word32) (s : State) : (answer v s).inDim = s.inDim := rfl
@[simp] theorem answer_rst (v : Word32) (s : State) : (answer v s).rst = s.rst := rfl
@[simp] theorem answer_dc (v : Word32) (s : State) : (answer v s).dc = s.dc := rfl
@[simp] theorem answer_pwr (v : Word32) (s : State) : (answer v s).pwr = s.pwr := rfl
@[simp] theorem answer_busyRaw (v : Word32) (s : State) : (answer v s).busyRaw = s.busyRaw := rfl
@[simp] theorem answer_own (v : Word32) (s : State) : (answer v s).own = s.own := rfl
@[simp] theorem answer_palette (v : Word32) (s : State) : (answer v s).palette = s.palette := rfl
@[simp] theorem answer_inRam (v : Word32) (s : State) : (answer v s).inRam = s.inRam := rfl
@[simp] theorem answer_frameRam (v : Word32) (s : State) : (answer v s).frameRam = s.frameRam := rfl
@[simp] theorem answer_packRam (v : Word32) (s : State) : (answer v s).packRam = s.packRam := rfl
@[simp] theorem answer_cmd (v : Word32) (s : State) : (answer v s).cmd = s.cmd := rfl
@[simp] theorem answer_script (v : Word32) (s : State) : (answer v s).script = s.script := rfl
@[simp] theorem answer_time (v : Word32) (s : State) : (answer v s).time = s.time := rfl
@[simp] theorem answer_trace (v : Word32) (s : State) : (answer v s).trace = s.trace := rfl
@[simp] theorem answer_draws (v : Word32) (s : State) : (answer v s).draws = s.draws := rfl
@[simp] theorem answer_hostQ (v : Word32) (s : State) : (answer v s).hostQ = s.hostQ := rfl
@[simp] theorem answer_reads (v : Word32) (s : State) : (answer v s).reads = v :: s.reads := rfl
@[simp] theorem answer_faults (v : Word32) (s : State) : (answer v s).faults = s.faults := rfl

/-! ### `startCommand` -/

@[simp] theorem startCommand_run (i : Instr) (x : Sess) (l : List Op) (s : State) : (startCommand i x l s).run = s.run := rfl
@[simp] theorem startCommand_sess (i : Instr) (x : Sess) (l : List Op) (s : State) : (startCommand i x l s).sess = x := rfl
@[simp] theorem startCommand_err (i : Instr) (x : Sess) (l : List Op) (s : State) : (startCommand i x l s).err = s.err := rfl
@[simp] theorem startCommand_ovr (i : Instr) (x : Sess) (l : List Op) (s : State) : (startCommand i x l s).ovr = s.ovr := rfl
@[simp] theorem startCommand_lastOp (i : Instr) (x : Sess) (l : List Op) (s : State) : (startCommand i x l s).lastOp = s.lastOp := rfl
@[simp] theorem startCommand_result (i : Instr) (x : Sess) (l : List Op) (s : State) : (startCommand i x l s).result = s.result := rfl
@[simp] theorem startCommand_inDim (i : Instr) (x : Sess) (l : List Op) (s : State) : (startCommand i x l s).inDim = s.inDim := rfl
@[simp] theorem startCommand_rst (i : Instr) (x : Sess) (l : List Op) (s : State) : (startCommand i x l s).rst = s.rst := rfl
@[simp] theorem startCommand_dc (i : Instr) (x : Sess) (l : List Op) (s : State) : (startCommand i x l s).dc = s.dc := rfl
@[simp] theorem startCommand_pwr (i : Instr) (x : Sess) (l : List Op) (s : State) : (startCommand i x l s).pwr = s.pwr := rfl
@[simp] theorem startCommand_busyRaw (i : Instr) (x : Sess) (l : List Op) (s : State) : (startCommand i x l s).busyRaw = s.busyRaw := rfl
@[simp] theorem startCommand_own (i : Instr) (x : Sess) (l : List Op) (s : State) : (startCommand i x l s).own = s.own := rfl
@[simp] theorem startCommand_palette (i : Instr) (x : Sess) (l : List Op) (s : State) : (startCommand i x l s).palette = s.palette := rfl
@[simp] theorem startCommand_inRam (i : Instr) (x : Sess) (l : List Op) (s : State) : (startCommand i x l s).inRam = s.inRam := rfl
@[simp] theorem startCommand_frameRam (i : Instr) (x : Sess) (l : List Op) (s : State) : (startCommand i x l s).frameRam = s.frameRam := rfl
@[simp] theorem startCommand_packRam (i : Instr) (x : Sess) (l : List Op) (s : State) : (startCommand i x l s).packRam = s.packRam := rfl
@[simp] theorem startCommand_cmd (i : Instr) (x : Sess) (l : List Op) (s : State) : (startCommand i x l s).cmd = some i := rfl
@[simp] theorem startCommand_script (i : Instr) (x : Sess) (l : List Op) (s : State) : (startCommand i x l s).script = l := rfl
@[simp] theorem startCommand_time (i : Instr) (x : Sess) (l : List Op) (s : State) : (startCommand i x l s).time = s.time := rfl
@[simp] theorem startCommand_trace (i : Instr) (x : Sess) (l : List Op) (s : State) : (startCommand i x l s).trace = s.trace := rfl
@[simp] theorem startCommand_draws (i : Instr) (x : Sess) (l : List Op) (s : State) : (startCommand i x l s).draws = s.draws := rfl
@[simp] theorem startCommand_hostQ (i : Instr) (x : Sess) (l : List Op) (s : State) : (startCommand i x l s).hostQ = s.hostQ := rfl
@[simp] theorem startCommand_reads (i : Instr) (x : Sess) (l : List Op) (s : State) : (startCommand i x l s).reads = s.reads := rfl
@[simp] theorem startCommand_faults (i : Instr) (x : Sess) (l : List Op) (s : State) : (startCommand i x l s).faults = s.faults := rfl

/-! ### `holdFor` -/

@[simp] theorem holdFor_run (c : Config) (t : Nat) (s : State) : (holdFor c t s).run = s.run := rfl
@[simp] theorem holdFor_sess (c : Config) (t : Nat) (s : State) : (holdFor c t s).sess = s.sess := rfl
@[simp] theorem holdFor_err (c : Config) (t : Nat) (s : State) : (holdFor c t s).err = s.err := rfl
@[simp] theorem holdFor_ovr (c : Config) (t : Nat) (s : State) : (holdFor c t s).ovr = s.ovr := rfl
@[simp] theorem holdFor_lastOp (c : Config) (t : Nat) (s : State) : (holdFor c t s).lastOp = s.lastOp := rfl
@[simp] theorem holdFor_result (c : Config) (t : Nat) (s : State) : (holdFor c t s).result = s.result := rfl
@[simp] theorem holdFor_inDim (c : Config) (t : Nat) (s : State) : (holdFor c t s).inDim = s.inDim := rfl
@[simp] theorem holdFor_rst (c : Config) (t : Nat) (s : State) : (holdFor c t s).rst = s.rst := rfl
@[simp] theorem holdFor_dc (c : Config) (t : Nat) (s : State) : (holdFor c t s).dc = s.dc := rfl
@[simp] theorem holdFor_pwr (c : Config) (t : Nat) (s : State) : (holdFor c t s).pwr = s.pwr := rfl
@[simp] theorem holdFor_busyRaw (c : Config) (t : Nat) (s : State) : (holdFor c t s).busyRaw = s.busyRaw := rfl
@[simp] theorem holdFor_own (c : Config) (t : Nat) (s : State) : (holdFor c t s).own = s.own := rfl
@[simp] theorem holdFor_palette (c : Config) (t : Nat) (s : State) : (holdFor c t s).palette = s.palette := rfl
@[simp] theorem holdFor_inRam (c : Config) (t : Nat) (s : State) : (holdFor c t s).inRam = s.inRam := rfl
@[simp] theorem holdFor_frameRam (c : Config) (t : Nat) (s : State) : (holdFor c t s).frameRam = s.frameRam := rfl
@[simp] theorem holdFor_packRam (c : Config) (t : Nat) (s : State) : (holdFor c t s).packRam = s.packRam := rfl
@[simp] theorem holdFor_cmd (c : Config) (t : Nat) (s : State) : (holdFor c t s).cmd = s.cmd := rfl
@[simp] theorem holdFor_script (c : Config) (t : Nat) (s : State) : (holdFor c t s).script = s.script := rfl
@[simp] theorem holdFor_time (c : Config) (t : Nat) (s : State) : (holdFor c t s).time = s.time + t + c.holdExtra s.draws := rfl
@[simp] theorem holdFor_trace (c : Config) (t : Nat) (s : State) : (holdFor c t s).trace = .hold t :: s.trace := rfl
@[simp] theorem holdFor_draws (c : Config) (t : Nat) (s : State) : (holdFor c t s).draws = s.draws + 1 := rfl
@[simp] theorem holdFor_hostQ (c : Config) (t : Nat) (s : State) : (holdFor c t s).hostQ = s.hostQ := rfl
@[simp] theorem holdFor_reads (c : Config) (t : Nat) (s : State) : (holdFor c t s).reads = s.reads := rfl
@[simp] theorem holdFor_faults (c : Config) (t : Nat) (s : State) : (holdFor c t s).faults = s.faults := rfl

/-! ### `coreReset` -/

@[simp] theorem coreReset_run (c : Config) (s : State) : (coreReset c s).run = false := rfl
@[simp] theorem coreReset_sess (c : Config) (s : State) : (coreReset c s).sess = .closed := rfl
@[simp] theorem coreReset_err (c : Config) (s : State) : (coreReset c s).err = .ok := rfl
@[simp] theorem coreReset_ovr (c : Config) (s : State) : (coreReset c s).ovr = false := rfl
@[simp] theorem coreReset_lastOp (c : Config) (s : State) : (coreReset c s).lastOp = 0 := rfl
@[simp] theorem coreReset_result (c : Config) (s : State) : (coreReset c s).result = 0 := rfl
@[simp] theorem coreReset_inDim (c : Config) (s : State) : (coreReset c s).inDim = 0 := rfl
@[simp] theorem coreReset_rst (c : Config) (s : State) : (coreReset c s).rst = false := rfl
@[simp] theorem coreReset_dc (c : Config) (s : State) : (coreReset c s).dc = false := rfl
@[simp] theorem coreReset_pwr (c : Config) (s : State) : (coreReset c s).pwr = false := rfl
@[simp] theorem coreReset_busyRaw (c : Config) (s : State) : (coreReset c s).busyRaw = false := rfl
@[simp] theorem coreReset_own (c : Config) (s : State) : (coreReset c s).own = false := rfl
@[simp] theorem coreReset_palette (c : Config) (s : State) : (coreReset c s).palette = s.palette := rfl
@[simp] theorem coreReset_inRam (c : Config) (s : State) : (coreReset c s).inRam = [] := rfl
@[simp] theorem coreReset_frameRam (c : Config) (s : State) : (coreReset c s).frameRam = [] := rfl
@[simp] theorem coreReset_packRam (c : Config) (s : State) : (coreReset c s).packRam = [] := rfl
@[simp] theorem coreReset_cmd (c : Config) (s : State) : (coreReset c s).cmd = none := rfl
@[simp] theorem coreReset_script (c : Config) (s : State) : (coreReset c s).script = [] := rfl
@[simp] theorem coreReset_time (c : Config) (s : State) : (coreReset c s).time = c.timeAtReset s.draws := rfl
@[simp] theorem coreReset_trace (c : Config) (s : State) : (coreReset c s).trace = resetTrace s := rfl
@[simp] theorem coreReset_draws (c : Config) (s : State) : (coreReset c s).draws = s.draws + 1 := rfl
@[simp] theorem coreReset_hostQ (c : Config) (s : State) : (coreReset c s).hostQ = s.hostQ := rfl
@[simp] theorem coreReset_reads (c : Config) (s : State) : (coreReset c s).reads = s.reads := rfl
@[simp] theorem coreReset_faults (c : Config) (s : State) : (coreReset c s).faults = s.faults := rfl

/-! ### `setLatch` -/

@[simp] theorem setLatch_run (l : Line) (v : Bool) (s : State) : (setLatch l v s).run = s.run := by cases l <;> rfl
@[simp] theorem setLatch_sess (l : Line) (v : Bool) (s : State) : (setLatch l v s).sess = s.sess := by cases l <;> rfl
@[simp] theorem setLatch_err (l : Line) (v : Bool) (s : State) : (setLatch l v s).err = s.err := by cases l <;> rfl
@[simp] theorem setLatch_ovr (l : Line) (v : Bool) (s : State) : (setLatch l v s).ovr = s.ovr := by cases l <;> rfl
@[simp] theorem setLatch_lastOp (l : Line) (v : Bool) (s : State) : (setLatch l v s).lastOp = s.lastOp := by cases l <;> rfl
@[simp] theorem setLatch_result (l : Line) (v : Bool) (s : State) : (setLatch l v s).result = s.result := by cases l <;> rfl
@[simp] theorem setLatch_inDim (l : Line) (v : Bool) (s : State) : (setLatch l v s).inDim = s.inDim := by cases l <;> rfl
@[simp] theorem setLatch_busyRaw (l : Line) (v : Bool) (s : State) : (setLatch l v s).busyRaw = s.busyRaw := by cases l <;> rfl
@[simp] theorem setLatch_own (l : Line) (v : Bool) (s : State) : (setLatch l v s).own = s.own := by cases l <;> rfl
@[simp] theorem setLatch_palette (l : Line) (v : Bool) (s : State) : (setLatch l v s).palette = s.palette := by cases l <;> rfl
@[simp] theorem setLatch_inRam (l : Line) (v : Bool) (s : State) : (setLatch l v s).inRam = s.inRam := by cases l <;> rfl
@[simp] theorem setLatch_frameRam (l : Line) (v : Bool) (s : State) : (setLatch l v s).frameRam = s.frameRam := by cases l <;> rfl
@[simp] theorem setLatch_packRam (l : Line) (v : Bool) (s : State) : (setLatch l v s).packRam = s.packRam := by cases l <;> rfl
@[simp] theorem setLatch_cmd (l : Line) (v : Bool) (s : State) : (setLatch l v s).cmd = s.cmd := by cases l <;> rfl
@[simp] theorem setLatch_script (l : Line) (v : Bool) (s : State) : (setLatch l v s).script = s.script := by cases l <;> rfl
@[simp] theorem setLatch_time (l : Line) (v : Bool) (s : State) : (setLatch l v s).time = s.time := by cases l <;> rfl
@[simp] theorem setLatch_trace (l : Line) (v : Bool) (s : State) : (setLatch l v s).trace = s.trace := by cases l <;> rfl
@[simp] theorem setLatch_draws (l : Line) (v : Bool) (s : State) : (setLatch l v s).draws = s.draws := by cases l <;> rfl
@[simp] theorem setLatch_hostQ (l : Line) (v : Bool) (s : State) : (setLatch l v s).hostQ = s.hostQ := by cases l <;> rfl
@[simp] theorem setLatch_reads (l : Line) (v : Bool) (s : State) : (setLatch l v s).reads = s.reads := by cases l <;> rfl
@[simp] theorem setLatch_faults (l : Line) (v : Bool) (s : State) : (setLatch l v s).faults = s.faults := by cases l <;> rfl

theorem latch_setLatch (l : Line) (v : Bool) (s : State) : latch (setLatch l v s) l = v := by cases l <;> rfl

theorem latch_setLatch_of_ne {l k : Line} (h : k ≠ l) (v : Bool) (s : State) :
    latch (setLatch l v s) k = latch s k := by
  cases l <;> cases k <;> simp_all [latch, setLatch]

theorem setLatch_dc_eq (l : Line) (v : Bool) (s : State) :
    (setLatch l v s).dc = if l = .dc then v else s.dc := by cases l <;> rfl

theorem setLatch_rst_eq (l : Line) (v : Bool) (s : State) :
    (setLatch l v s).rst = if l = .rst then v else s.rst := by cases l <;> rfl

theorem setLatch_pwr_eq (l : Line) (v : Bool) (s : State) :
    (setLatch l v s).pwr = if l = .pwr then v else s.pwr := by cases l <;> rfl

/-! ### `addFault` -/

@[simp] theorem addFault_run (f : ModelFault) (s : State) : (addFault f s).run = s.run := rfl
@[simp] theorem addFault_sess (f : ModelFault) (s : State) : (addFault f s).sess = s.sess := rfl
@[simp] theorem addFault_err (f : ModelFault) (s : State) : (addFault f s).err = s.err := rfl
@[simp] theorem addFault_ovr (f : ModelFault) (s : State) : (addFault f s).ovr = s.ovr := rfl
@[simp] theorem addFault_lastOp (f : ModelFault) (s : State) : (addFault f s).lastOp = s.lastOp := rfl
@[simp] theorem addFault_result (f : ModelFault) (s : State) : (addFault f s).result = s.result := rfl
@[simp] theorem addFault_inDim (f : ModelFault) (s : State) : (addFault f s).inDim = s.inDim := rfl
@[simp] theorem addFault_rst (f : ModelFault) (s : State) : (addFault f s).rst = s.rst := rfl
@[simp] theorem addFault_dc (f : ModelFault) (s : State) : (addFault f s).dc = s.dc := rfl
@[simp] theorem addFault_pwr (f : ModelFault) (s : State) : (addFault f s).pwr = s.pwr := rfl
@[simp] theorem addFault_busyRaw (f : ModelFault) (s : State) : (addFault f s).busyRaw = s.busyRaw := rfl
@[simp] theorem addFault_own (f : ModelFault) (s : State) : (addFault f s).own = s.own := rfl
@[simp] theorem addFault_palette (f : ModelFault) (s : State) : (addFault f s).palette = s.palette := rfl
@[simp] theorem addFault_inRam (f : ModelFault) (s : State) : (addFault f s).inRam = s.inRam := rfl
@[simp] theorem addFault_frameRam (f : ModelFault) (s : State) : (addFault f s).frameRam = s.frameRam := rfl
@[simp] theorem addFault_packRam (f : ModelFault) (s : State) : (addFault f s).packRam = s.packRam := rfl
@[simp] theorem addFault_cmd (f : ModelFault) (s : State) : (addFault f s).cmd = s.cmd := rfl
@[simp] theorem addFault_script (f : ModelFault) (s : State) : (addFault f s).script = s.script := rfl
@[simp] theorem addFault_time (f : ModelFault) (s : State) : (addFault f s).time = s.time := rfl
@[simp] theorem addFault_faults (f : ModelFault) (s : State) : (addFault f s).faults = record f s.faults := rfl
@[simp] theorem addFault_trace (f : ModelFault) (s : State) : (addFault f s).trace = s.trace := rfl
@[simp] theorem addFault_draws (f : ModelFault) (s : State) : (addFault f s).draws = s.draws := rfl
@[simp] theorem addFault_hostQ (f : ModelFault) (s : State) : (addFault f s).hostQ = s.hostQ := rfl
@[simp] theorem addFault_reads (f : ModelFault) (s : State) : (addFault f s).reads = s.reads := rfl

/-! ### `haltCommand` -/

@[simp] theorem haltCommand_run (f : ModelFault) (s : State) : (haltCommand f s).run = s.run := rfl
@[simp] theorem haltCommand_sess (f : ModelFault) (s : State) : (haltCommand f s).sess = s.sess := rfl
@[simp] theorem haltCommand_err (f : ModelFault) (s : State) : (haltCommand f s).err = s.err := rfl
@[simp] theorem haltCommand_ovr (f : ModelFault) (s : State) : (haltCommand f s).ovr = s.ovr := rfl
@[simp] theorem haltCommand_lastOp (f : ModelFault) (s : State) : (haltCommand f s).lastOp = s.lastOp := rfl
@[simp] theorem haltCommand_result (f : ModelFault) (s : State) : (haltCommand f s).result = s.result := rfl
@[simp] theorem haltCommand_inDim (f : ModelFault) (s : State) : (haltCommand f s).inDim = s.inDim := rfl
@[simp] theorem haltCommand_rst (f : ModelFault) (s : State) : (haltCommand f s).rst = s.rst := rfl
@[simp] theorem haltCommand_dc (f : ModelFault) (s : State) : (haltCommand f s).dc = s.dc := rfl
@[simp] theorem haltCommand_pwr (f : ModelFault) (s : State) : (haltCommand f s).pwr = s.pwr := rfl
@[simp] theorem haltCommand_busyRaw (f : ModelFault) (s : State) : (haltCommand f s).busyRaw = s.busyRaw := rfl
@[simp] theorem haltCommand_own (f : ModelFault) (s : State) : (haltCommand f s).own = s.own := rfl
@[simp] theorem haltCommand_palette (f : ModelFault) (s : State) : (haltCommand f s).palette = s.palette := rfl
@[simp] theorem haltCommand_inRam (f : ModelFault) (s : State) : (haltCommand f s).inRam = s.inRam := rfl
@[simp] theorem haltCommand_frameRam (f : ModelFault) (s : State) : (haltCommand f s).frameRam = s.frameRam := rfl
@[simp] theorem haltCommand_packRam (f : ModelFault) (s : State) : (haltCommand f s).packRam = s.packRam := rfl
@[simp] theorem haltCommand_cmd (f : ModelFault) (s : State) : (haltCommand f s).cmd = s.cmd := rfl
@[simp] theorem haltCommand_script (f : ModelFault) (s : State) : (haltCommand f s).script = [.halted] := rfl
@[simp] theorem haltCommand_time (f : ModelFault) (s : State) : (haltCommand f s).time = s.time := rfl
@[simp] theorem haltCommand_faults (f : ModelFault) (s : State) : (haltCommand f s).faults = record f s.faults := rfl
@[simp] theorem haltCommand_trace (f : ModelFault) (s : State) : (haltCommand f s).trace = s.trace := rfl
@[simp] theorem haltCommand_draws (f : ModelFault) (s : State) : (haltCommand f s).draws = s.draws := rfl
@[simp] theorem haltCommand_hostQ (f : ModelFault) (s : State) : (haltCommand f s).hostQ = s.hostQ := rfl
@[simp] theorem haltCommand_reads (f : ModelFault) (s : State) : (haltCommand f s).reads = s.reads := rfl

end Sys2Proof.Machine
end

