-- ==== Sys2Proof/Laws/Ops.lean ====
section
/-! SUPPORT. What each shared operation can do, said once: the two ends of an abort, the two outcomes of every event, the ways a step can go. -/

namespace Sys2Proof.Machine

/-- `Machine.exec` is the generic meaning at this hardware's parameters. -/
theorem exec_eq_execWith (i : Instr) (s : State) : exec i s = execWith Config.epd6 i s := by
  cases i <;> rfl

theorem exec_funext : exec = execWith Config.epd6 := by
  funext i s
  exact exec_eq_execWith i s

/-- A step of this hardware is a step under its parameters. -/
theorem step_eq_stepWith (s : State) : step s = stepWith Config.epd6 (execWith Config.epd6) s := by
  rw [step, exec_funext]

/-- The environment's answer to an event is one of two. -/
theorem ack_cases (a : Ack) : a = .ok ∨ a = .err := by cases a <;> simp

theorem abort_of_close {e : Err} {s : State} (h : s.cmd = some .closeSession) :
    abort e s = { s with script := releaseTail ++ [.finish .closed e] } := by rw [abort, if_pos h]

theorem abort_of_ne_close {e : Err} {s : State} (h : s.cmd ≠ some .closeSession) :
    abort e s = finish .failed e s := by rw [abort, if_neg h]

/-- An abort touches the session, the error code, RUN and the sequencer only. -/
theorem abort_frame (e : Err) (s : State) :
    ∃ x e' r k l, abort e s = { s with sess := x, err := e', run := r, cmd := k, script := l } := by
  by_cases h : s.cmd = some .closeSession
  · exact ⟨s.sess, s.err, s.run, s.cmd, _, abort_of_close h⟩
  · exact ⟨_, _, _, _, _, abort_of_ne_close h⟩

theorem orBusError_ok (s : State) : orBusError .ok s = s := rfl

theorem orBusError_err (s : State) : orBusError .err s = abort .busError s := rfl

/-- `Set(l, v)` with outcome `ok`. -/
theorem driveLine_ok {c : Config} {l : Line} {v : Bool} {s : State} (h : c.ack s.draws = .ok) :
    driveLine c l v s = emit (.set l v .ok) (setLatch l v s) := by rw [driveLine, h]

/-- `Set(l, v)` with outcome `err`. -/
theorem driveLine_err {c : Config} {l : Line} {v : Bool} {s : State} (h : c.ack s.draws = .err) :
    driveLine c l v s =
      emit (.set l v .err) (setLatch l (if c.latchTaken s.draws then v else latch s l) s) := by rw [driveLine, h]

/-- In every case `Set(l, v)` leaves some level in its latch, one event in the trace and one draw fewer. -/
theorem driveLine_form (c : Config) (l : Line) (v : Bool) (s : State) :
    ∃ u, driveLine c l v s = emit (.set l v (c.ack s.draws)) (setLatch l u s) := by
  rcases ack_cases (c.ack s.draws) with h | h
  · exact ⟨v, by rw [driveLine_ok h, h]⟩
  · exact ⟨_, by rw [driveLine_err h, h]⟩

theorem setLine_ok {c : Config} {l : Line} {v : Bool} {s : State} (h : c.ack s.draws = .ok) :
    setLine c l v s = emit (.set l v .ok) (setLatch l v s) := by
  rw [setLine, h, orBusError_ok, driveLine_ok h]

theorem setLine_err {c : Config} {l : Line} {v : Bool} {s : State} (h : c.ack s.draws = .err) :
    ∃ u, setLine c l v s = abort .busError (emit (.set l v .err) (setLatch l u s)) :=
  ⟨_, by rw [setLine, h, orBusError_err, driveLine_err h]⟩

theorem transfer_ok {c : Config} {b : Byte} {s : State} (h : c.ack s.draws = .ok) :
    transfer c b s = emit (.xfer s.dc b .ok) s := by rw [transfer, h, orBusError_ok]

theorem transfer_err {c : Config} {b : Byte} {s : State} (h : c.ack s.draws = .err) :
    transfer c b s = abort .busError (emit (.xfer s.dc b .err) s) := by rw [transfer, h, orBusError_err]

theorem acquire_ok {c : Config} {s : State} (h : c.ack s.draws = .ok) :
    acquire c s = { emit (.acq .ok) s with own := true } := by rw [acquire, h]

theorem acquire_err {c : Config} {s : State} (h : c.ack s.draws = .err) :
    acquire c s = abort .busError (emit (.acq .err) s) := by rw [acquire, h]

theorem pollBusy_err {c : Config} {k : Nat} {s : State} (h : c.sample s.draws = none) :
    pollBusy c k s = abort .busError (emit (.sample none) s) := by rw [pollBusy, h]

theorem pollBusy_idle {c : Config} {k : Nat} {s : State} (h : c.sample s.draws = some c.busyIdleLevel) :
    pollBusy c k s = { emit (.sample (some c.busyIdleLevel)) s with busyRaw := c.busyIdleLevel } := by
  simp [pollBusy, h]

theorem pollBusy_timeout {c : Config} {s : State} {v : Bool} (h : c.sample s.draws = some v)
    (hv : v ≠ c.busyIdleLevel) :
    pollBusy c (nPoll c) s = abort .deviceTimeout { emit (.sample (some v)) s with busyRaw := v } := by
  simp [pollBusy, h, hv]

theorem pollBusy_again {c : Config} {k : Nat} {s : State} {v : Bool} (h : c.sample s.draws = some v)
    (hv : v ≠ c.busyIdleLevel) (hk : k ≠ nPoll c) :
    pollBusy c k s =
      { emit (.sample (some v)) s with busyRaw := v, script := .pollHold k :: s.script } := by
  simp [pollBusy, h, hv, hk]

/-! ### Model faults -/

/-- A fault stays in the set whatever fault follows. -/
theorem record_mono (f : ModelFault) (fs : FaultSet) :
    (fs.unwrittenRead = true → (record f fs).unwrittenRead = true)
    ∧ (fs.hostAccess = true → (record f fs).hostAccess = true)
    ∧ (fs.hostHazard = true → (record f fs).hostHazard = true) := by
  cases f <;> simp [record]

/-- No event and no abort touches the fault set. -/
theorem abort_faults (e : Err) (s : State) : (abort e s).faults = s.faults := by
  obtain ⟨_, _, _, _, _, h⟩ := abort_frame e s
  rw [h]

theorem driveLine_faults (c : Config) (l : Line) (v : Bool) (s : State) : (driveLine c l v s).faults = s.faults := by
  obtain ⟨u, h⟩ := driveLine_form c l v s
  rw [h, emit_faults, setLatch_faults]

theorem setLine_faults (c : Config) (l : Line) (v : Bool) (s : State) : (setLine c l v s).faults = s.faults := by
  unfold setLine orBusError
  split
  · exact driveLine_faults c l v s
  · rw [abort_faults, driveLine_faults]

theorem transfer_faults (c : Config) (b : Byte) (s : State) : (transfer c b s).faults = s.faults := by
  unfold transfer orBusError
  split
  · rfl
  · rw [abort_faults, emit_faults]

theorem acquire_faults (c : Config) (s : State) : (acquire c s).faults = s.faults := by
  unfold acquire
  split
  · rfl
  · rw [abort_faults, emit_faults]

theorem pollBusy_faults (c : Config) (k : Nat) (s : State) : (pollBusy c k s).faults = s.faults := by
  unfold pollBusy
  split
  · rw [abort_faults, emit_faults]
  · split
    · rfl
    · split
      · exact abort_faults _ _
      · rfl

/-! ### The ways a step can go -/

theorem coreStep_idle {c : Config} {ex : Exec} {s : State} (h : s.run = false) : coreStep c ex s = .next s := by
  simp [coreStep, h]

theorem coreStep_instr {c : Config} {ex : Exec} {s : State} {k : Code} {i : Instr} {rest : List Op}
    (hr : s.run = true) (hs : s.script = .instr k :: rest) (hd : decode k = .ok i) : coreStep c ex s = ex i s := by
  cases k <;> simp_all [coreStep, decode]

theorem coreStep_illegal {c : Config} {ex : Exec} {s : State} {w : Word32} {e : DecodeError} {rest : List Op}
    (hr : s.run = true) (hs : s.script = .instr (.cmd w) :: rest) (hd : decodeCommand w = .error e) :
    coreStep c ex s = .next (complete .illegalCommand s) := by
  simp [coreStep, hr, hs, hd]

theorem coreStep_op {c : Config} {ex : Exec} {s : State} {op : Op} {rest : List Op}
    (hr : s.run = true) (hs : s.script = op :: rest) (hop : ∀ k, op ≠ .instr k) :
    coreStep c ex s = .next (microStep c op { s with script := rest }) := by
  cases op <;> simp_all [coreStep]

/-- The core's step, case by case. -/
theorem coreStep_cases (c : Config) (ex : Exec) (s : State) :
    (s.run = false ∧ coreStep c ex s = .next s)
      ∨ (s.run = true ∧ s.script = [] ∧ coreStep c ex s = .next s)
      ∨ (∃ k i rest, s.run = true ∧ s.script = .instr k :: rest ∧ decode k = .ok i ∧ coreStep c ex s = ex i s)
      ∨ (∃ w e rest, s.run = true ∧ s.script = .instr (.cmd w) :: rest ∧ decodeCommand w = .error e
          ∧ coreStep c ex s = .next (complete .illegalCommand s))
      ∨ (∃ b e rest, s.run = true ∧ s.script = .instr (.panel b) :: rest ∧ decodePanel b = .error e
          ∧ coreStep c ex s = .refused (.unknownPanelByte b))
      ∨ (∃ op rest, s.run = true ∧ s.script = op :: rest ∧ (∀ k, op ≠ .instr k)
          ∧ coreStep c ex s = .next (microStep c op { s with script := rest })) := by
  by_cases hr : s.run = true
  · rcases hs : s.script with _ | ⟨op, rest⟩
    · exact .inr (.inl ⟨hr, rfl, by simp [coreStep, hr, hs]⟩)
    · by_cases hop : ∃ k, op = .instr k
      · obtain ⟨k, rfl⟩ := hop
        cases hd : decode k with
        | ok i => exact .inr (.inr (.inl ⟨k, i, rest, hr, rfl, hd, coreStep_instr hr hs hd⟩))
        | error e =>
          cases k with
          | cmd w => exact .inr (.inr (.inr (.inl ⟨w, e, rest, hr, rfl, hd, coreStep_illegal hr hs hd⟩)))
          | panel b =>
            refine .inr (.inr (.inr (.inr (.inl ⟨b, e, rest, hr, rfl, ?_⟩))))
            have hd' : decodePanel b = .error e := hd
            exact ⟨hd', by simp [coreStep, hr, hs, hd']⟩
      · push Not at hop
        exact .inr (.inr (.inr (.inr (.inr ⟨op, rest, hr, rfl, hop, coreStep_op hr hs hop⟩))))
  · exact .inl ⟨by simpa using hr, coreStep_idle (by simpa using hr)⟩

/-- A step is the core's when the host has nothing to do. -/
theorem stepWith_alone {c : Config} {ex : Exec} {s : State} (h : s.hostQ = []) : stepWith c ex s = coreStep c ex s := by
  rw [stepWith, h]

theorem stepWith_host {c : Config} {ex : Exec} {s : State} {a : HostAct} {q : List HostAct} (h : s.hostQ = a :: q) :
    stepWith c ex s = hostTurn c ex a { s with hostQ := q } := by
  rw [stepWith, h]

/-! ### Runs -/

theorem runSteps_succ (f : State → Host.Outcome State Fault Refusal) (n : Nat) (s : State) :
    runSteps f (n + 1) s =
      match f s with
      | .next t => runSteps f n t
      | o => o := rfl

theorem runSteps_next {f : State → Host.Outcome State Fault Refusal} {n : Nat} {s t : State} (h : f s = .next t) :
    runSteps f (n + 1) s = runSteps f n t := by rw [runSteps_succ, h]

/-- Two runs one after the other are one run. -/
theorem runSteps_add {f : State → Host.Outcome State Fault Refusal} {m n : Nat} {s t : State}
    (h : runSteps f m s = .next t) : runSteps f (m + n) s = runSteps f n t := by
  induction m generalizing s with
  | zero =>
    cases h
    rw [Nat.zero_add]
  | succ m ih =>
    rw [Nat.add_right_comm, runSteps_succ]
    rw [runSteps_succ] at h
    split at h
    · exact ih h
    · rename_i o ho
      exact absurd h (ho t)

end Sys2Proof.Machine
end

