-- ==== Sys2Proof/Laws/Passes.lean ====
section
/-! SUPPORT. The commands that write a memory, byte by byte, keep its canonical form: ORIENT, the two dithers, PACK; and where their neighbours lie. -/

namespace Sys2Proof.Machine

/-- A loop whose body keeps the canonical form keeps it. -/
theorem loop_mem_wf {body : Nat → Mem → Option Mem} {size n : Nat} {m m' : Mem}
    (hb : ∀ j u v, j < n → Mem.wf u size → body j u = some v → Mem.wf v size)
    (h : Mem.wf m size) (hl : loop body n 0 m = some m') : Mem.wf m' size :=
  loop_invariant (fun _ u => Mem.wf u size) (fun j u v _ h2 hu hv => hb j u v (by omega) hu hv) h hl

theorem wf_orientFrame {c : Config} {o : Orientation} {inRam m m' : Mem} (hm : Mem.wf m (frameSize c))
    (h : orientFrame c o inRam m = some m') : Mem.wf m' (frameSize c) := by
  refine loop_mem_wf (fun y u v hy hu hv => ?_) hm h
  refine loop_mem_wf (fun x u v hx hu hv => ?_) hu hv
  unfold orientPixel at hv
  split at hv
  · cases hv
  · cases hv
    exact wf_writePix _ hu hx hy

theorem wf_packLoop {c : Config} {p : Palette} {frame m m' : Mem} (hm : Mem.wf m (packSize c))
    (h : loop (packByte c p frame) (packSize c) 0 m = some m') : Mem.wf m' (packSize c) := by
  refine loop_mem_wf (fun k u v hk hu hv => ?_) hm h
  unfold packByte at hv
  split at hv
  · cases hv
    exact wf_writeByte _ hu hk
  · cases hv

theorem wf_spread {w h : Nat} {l : List Share} {m m' : Mem} (hl : ∀ n ∈ l, n.x < w ∧ n.y < h)
    (hm : Mem.wf m (3 * w * h)) (hs : spread w l m = some m') : Mem.wf m' (3 * w * h) := by
  induction l generalizing m with
  | nil =>
    cases hs
    exact hm
  | cons n l ih =>
    simp only [spread] at hs
    split at hs
    · cases hs
    · exact ih (fun k hk => hl k (List.mem_cons_of_mem _ hk)) (wf_writePix _ hm (hl n (by simp)).1 (hl n (by simp)).2) hs

theorem wf_ditherPass {c : Config} {p : Palette} {sh : Nat → Nat → Rgb → Rgb → List Share} {m m' : Mem}
    (hsh : ∀ x y o q, x < c.W → y < c.H → ∀ n ∈ sh x y o q, n.x < c.W ∧ n.y < c.H)
    (hm : Mem.wf m (frameSize c)) (h : ditherPass c p sh m = some m') : Mem.wf m' (frameSize c) := by
  refine loop_mem_wf (fun y u v hy hu hv => ?_) hm h
  refine loop_mem_wf (fun x u v hx hu hv => ?_) hu hv
  unfold visit at hv
  split at hv
  · cases hv
  · exact wf_spread (hsh x y _ _ hx hy) (wf_writePix _ hu hx hy) hv

/-- Every Floyd–Steinberg neighbour lies inside the frame. -/
theorem fsShares_in {c : Config} {x y : Nat} {o q : Rgb} :
    ∀ n ∈ fsShares c x y o q, n.x < c.W ∧ n.y < c.H := by
  unfold fsShares
  split
  · intro n hn
    simp only [List.mem_cons, List.not_mem_nil, or_false] at hn
    rcases hn with rfl | rfl | rfl | rfl <;> simp <;> omega
  · simp

/-- Every Atkinson neighbour lies inside the frame. -/
theorem atkShares_in {c : Config} {x y : Nat} {o q : Rgb} :
    ∀ n ∈ atkShares c x y o q, n.x < c.W ∧ n.y < c.H := by
  unfold atkShares atkWestShare
  split
  · intro n hn
    simp only [List.mem_append, List.mem_cons, List.not_mem_nil, or_false] at hn
    rcases hn with ((rfl | rfl) | hn) | (rfl | rfl | rfl)
    any_goals (simp <;> omega)
    split at hn
    · split at hn
      · simp at hn
      · simp only [List.mem_cons, List.not_mem_nil, or_false] at hn
        subst hn
        simp
        omega
    · simp only [List.mem_cons, List.not_mem_nil, or_false] at hn
      subst hn
      simp
      omega
  · simp

/-! ### A pass over a written frame answers -/

/-- Every pixel of the `w × h` raster reads. -/
abbrev Readable (m : Mem) (w h : Nat) : Prop := ∀ x < w, ∀ y < h, readPix m w x y ≠ none

/-- A written frame has every pixel. -/
theorem readable_of_allWritten {m : Mem} {w h : Nat} (hm : AllWritten m (3 * w * h)) : Readable m w h := by
  intro x hx y hy hn
  have hb := pixOffset_lt hx hy
  obtain ⟨j, hj, hr⟩ := readPix_eq_none.mp hn
  exact hm _ (by omega) hr

theorem readable_writePix {m : Mem} {w h x y : Nat} (p : Rgb) (hm : Readable m w h) (hx : x < w) :
    Readable (writePix m w x y p) w h := by
  intro x' hx' y' hy'
  by_cases e : x' = x ∧ y' = y
  · obtain ⟨rfl, rfl⟩ := e
    simp [readPix_writePix_same]
  · rw [readPix_writePix_other m p hx hx' e]
    exact hm x' hx' y' hy'

theorem spread_total {w h : Nat} {l : List Share} {m : Mem} (hl : ∀ n ∈ l, n.x < w ∧ n.y < h) (hm : Readable m w h) :
    ∃ m', spread w l m = some m' ∧ Readable m' w h := by
  induction l generalizing m with
  | nil => exact ⟨m, rfl, hm⟩
  | cons n l ih =>
    obtain ⟨hx, hy⟩ := hl n (by simp)
    obtain ⟨p, hp⟩ := Option.ne_none_iff_exists'.mp (hm n.x hx n.y hy)
    simp only [spread, hp]
    exact ih (fun k hk => hl k (List.mem_cons_of_mem _ hk)) (readable_writePix _ hm hx)

/-- A dither pass over a frame with every byte written answers, and its frame has every byte written. -/
theorem ditherPass_total {c : Config} {p : Palette} {sh : Nat → Nat → Rgb → Rgb → List Share} {m : Mem}
    (hsh : ∀ x y o q, x < c.W → y < c.H → ∀ n ∈ sh x y o q, n.x < c.W ∧ n.y < c.H)
    (hm : Readable m c.W c.H) : ∃ m', ditherPass c p sh m = some m' ∧ Readable m' c.W c.H := by
  refine loop_total (fun _ u => Readable u c.W c.H) (fun y u _ hy hu => ?_) hm
  refine loop_total (fun _ u => Readable u c.W c.H) (fun x u _ hx hu => ?_) hu
  obtain ⟨old, ho⟩ := Option.ne_none_iff_exists'.mp (hu x (by omega) y (by omega))
  simp only [visit, ho]
  exact spread_total (hsh x y _ _ (by omega) (by omega)) (readable_writePix _ hu (by omega))

/-- A host write inside a memory keeps the canonical form of the memory in its window. -/
theorem windowMem_setWindowMem {w : Window} {m : Mem} {s : State} (h : w ≠ .regs) :
    windowMem (setWindowMem w m s) w = m := by
  cases w
  · exact absurd rfl h
  · rfl
  · rfl
  · rfl

end Sys2Proof.Machine
end

