-- ==== Sys2Proof/Laws/PerInstr.lean ====
section
/-! SUPPORT. Per instruction: the encoder's word lies in the instruction's row of spec/opcode_table.json, that is, it has the row's length and, under the row's mask, the row's bits. -/

namespace Sys2Proof.Laws.TableRow

/-- A row of spec/opcode_table.json: bits in the instruction, `match` and `mask`. -/
structure Row where
  nbits : Nat
  bits : Nat
  mask : Nat

/-- The row of each instruction. -/
def row : Instr → Row
  | .nearest _ _ _ => ⟨32, 0x01000000, 0xFF000000⟩
  | .orient => ⟨32, 0x02000000, 0xFFFFFFFF⟩
  | .ditherFs => ⟨32, 0x03000000, 0xFFFFFFFF⟩
  | .ditherAtk => ⟨32, 0x04000000, 0xFFFFFFFF⟩
  | .pack => ⟨32, 0x05000000, 0xFFFFFFFF⟩
  | .openSession => ⟨32, 0x10000000, 0xFFFFFFFF⟩
  | .clear _ => ⟨32, 0x11000000, 0xFFFFFFF0⟩
  | .display _ => ⟨32, 0x12000000, 0xFF000000⟩
  | .closeSession => ⟨32, 0x13000000, 0xFFFFFFFF⟩
  | .panelCmdh => ⟨8, 0xAA, 0xFF⟩
  | .panelPanelSetting => ⟨8, 0x01, 0xFF⟩
  | .panelDriverOutput => ⟨8, 0x00, 0xFF⟩
  | .panelResSetting => ⟨8, 0x03, 0xFF⟩
  | .panelBoosterSoftStart1 => ⟨8, 0x05, 0xFF⟩
  | .panelBoosterSoftStart2 => ⟨8, 0x06, 0xFF⟩
  | .panelBoosterSoftStart3 => ⟨8, 0x08, 0xFF⟩
  | .panelPll => ⟨8, 0x30, 0xFF⟩
  | .panelVcom => ⟨8, 0x50, 0xFF⟩
  | .panelTcon => ⟨8, 0x60, 0xFF⟩
  | .panelResolution => ⟨8, 0x61, 0xFF⟩
  | .panelTse => ⟨8, 0x84, 0xFF⟩
  | .panelPowerSaving => ⟨8, 0xE3, 0xFF⟩
  | .panelPowerOn => ⟨8, 0x04, 0xFF⟩
  | .panelWriteRam => ⟨8, 0x10, 0xFF⟩
  | .panelDisplayRefresh => ⟨8, 0x12, 0xFF⟩
  | .panelPowerOff => ⟨8, 0x02, 0xFF⟩
  | .panelDeepSleep => ⟨8, 0x07, 0xFF⟩

/-- The code has the row's length and bits. -/
def InRow (k : Code) (r : Row) : Prop :=
  match k with
  | .cmd w => r.nbits = 32 ∧ w &&& BitVec.ofNat 32 r.mask = BitVec.ofNat 32 r.bits
  | .panel b => r.nbits = 8 ∧ b &&& BitVec.ofNat 8 r.mask = BitVec.ofNat 8 r.bits

/-- The encoder's word lies in the instruction's row. -/
def Statement (i : Instr) : Prop := InRow (encode i) (row i)

/-- A mask that keeps the high field clears the low one. -/
theorem append_and_high {m n : Nat} (hi mask : BitVec m) (lo : BitVec n) :
    (hi ++ lo) &&& (mask ++ (0 : BitVec n)) = (hi &&& mask) ++ (0 : BitVec n) := by
  refine BitVec.eq_of_getLsbD_eq fun i _ => ?_
  simp only [BitVec.getLsbD_and, BitVec.getLsbD_append]
  split <;> simp

theorem nearest (r g b : Byte) : Statement (.nearest r g b) := by
  have e : (0xFF000000#32 : BitVec (8 + 24)) = (0xFF : Byte) ++ (0 : BitVec 24) := by decide
  have h : ((0x01 : Byte) ++ r ++ g ++ b : BitVec (8 + 8 + 8 + 8)) = ((0x01 : Byte) ++ (r ++ g ++ b) : BitVec (8 + 24)) := by
    simp only [BitVec.append_assoc, BitVec.cast_eq]
  refine ⟨rfl, ?_⟩
  change ((0x01 : Byte) ++ r ++ g ++ b : BitVec (8 + 8 + 8 + 8)) &&& (0xFF000000#32 : BitVec (8 + 24)) = 0x01000000#32
  rw [h, e, append_and_high]
  decide

theorem clear (id : PalId) : Statement (.clear id) := by
  have e : (0xFFFFFFF0#32 : BitVec (28 + 4)) = (0xFFFFFFF : BitVec 28) ++ (0 : BitVec 4) := by decide
  refine ⟨rfl, ?_⟩
  change ((0x11 : Byte) ++ (0 : BitVec 20)) ++ id &&& (0xFFFFFFF0#32 : BitVec (28 + 4)) = 0x11000000#32
  rw [e, append_and_high]
  decide

theorem display (len : BitVec 24) : Statement (.display len) := by
  have e : (0xFF000000#32 : BitVec (8 + 24)) = (0xFF : Byte) ++ (0 : BitVec 24) := by decide
  refine ⟨rfl, ?_⟩
  change (0x12 : Byte) ++ len &&& (0xFF000000#32 : BitVec (8 + 24)) = 0x12000000#32
  rw [e, append_and_high]
  decide

theorem orient : Statement .orient := ⟨rfl, rfl⟩

theorem ditherFs : Statement .ditherFs := ⟨rfl, rfl⟩

theorem ditherAtk : Statement .ditherAtk := ⟨rfl, rfl⟩

theorem pack : Statement .pack := ⟨rfl, rfl⟩

theorem openSession : Statement .openSession := ⟨rfl, rfl⟩

theorem closeSession : Statement .closeSession := ⟨rfl, rfl⟩

theorem panelCmdh : Statement .panelCmdh := ⟨rfl, rfl⟩

theorem panelPanelSetting : Statement .panelPanelSetting := ⟨rfl, rfl⟩

theorem panelDriverOutput : Statement .panelDriverOutput := ⟨rfl, rfl⟩

theorem panelResSetting : Statement .panelResSetting := ⟨rfl, rfl⟩

theorem panelBoosterSoftStart1 : Statement .panelBoosterSoftStart1 := ⟨rfl, rfl⟩

theorem panelBoosterSoftStart2 : Statement .panelBoosterSoftStart2 := ⟨rfl, rfl⟩

theorem panelBoosterSoftStart3 : Statement .panelBoosterSoftStart3 := ⟨rfl, rfl⟩

theorem panelPll : Statement .panelPll := ⟨rfl, rfl⟩

theorem panelVcom : Statement .panelVcom := ⟨rfl, rfl⟩

theorem panelTcon : Statement .panelTcon := ⟨rfl, rfl⟩

theorem panelResolution : Statement .panelResolution := ⟨rfl, rfl⟩

theorem panelTse : Statement .panelTse := ⟨rfl, rfl⟩

theorem panelPowerSaving : Statement .panelPowerSaving := ⟨rfl, rfl⟩

theorem panelPowerOn : Statement .panelPowerOn := ⟨rfl, rfl⟩

theorem panelWriteRam : Statement .panelWriteRam := ⟨rfl, rfl⟩

theorem panelDisplayRefresh : Statement .panelDisplayRefresh := ⟨rfl, rfl⟩

theorem panelPowerOff : Statement .panelPowerOff := ⟨rfl, rfl⟩

theorem panelDeepSleep : Statement .panelDeepSleep := ⟨rfl, rfl⟩

end Sys2Proof.Laws.TableRow
end

