-- ==== Sys2Proof/Laws/Plan.lean ====
section
/-! SUPPORT. Scripts that keep the rules (`planOk`): what may be put before such a script, the scripts of the four session commands, and that an abort and an event keep the parts of the invariant. -/

namespace Sys2Proof.Machine

/-- A script safe with DC possibly 0 is safe whatever DC is. -/
theorem planOk_mono {c : Config} {cmd : Option Instr} {x : Sess} {own d : Bool} {l : List Op}
    (h : planOk c cmd x false own l = true) : planOk c cmd x d own l = true := by
  induction l generalizing x own d with
  | nil => simp [planOk] at h
  | cons op l ih =>
    cases d
    · exact h
    · cases op with
      | instr k =>
        cases k with
        | cmd w => simp [planOk] at h
        | panel b => simpa [planOk] using h
      | set ln v =>
        simp only [planOk, Bool.and_eq_true] at h ⊢
        refine ⟨h.1, ?_⟩
        split
        · rename_i hl
          simpa [hl] using h.2
        · rename_i hl
          exact ih (by simpa [hl] using h.2)
      | xfer b =>
        simp only [planOk, Bool.and_eq_true] at h ⊢
        exact ⟨⟨h.1.1, by simp⟩, ih h.2⟩
      | hold t =>
        simp only [planOk] at h ⊢
        exact ih h
      | acq | busyWait | pollHold | sess | rel =>
        simp only [planOk, Bool.and_eq_true] at h ⊢
        exact ⟨h.1, ih h.2⟩
      | fill b n => simpa [planOk] using h
      | stream k n => simpa [planOk] using h
      | relSet l => simpa [planOk] using h
      | finish y e => simpa [planOk] using h
      | halted => simp [planOk] at h

variable {c : Config} {cmd : Option Instr} {x : Sess} {own d : Bool}

theorem planOk_dataOps {p : List Byte} {l : List Op} (hm : mayAbort cmd x = true) (ho : own = true)
    (h : planOk c cmd x false own l = true) : planOk c cmd x d own (dataOps p ++ l) = true := by
  induction p generalizing d with
  | nil => exact planOk_mono h
  | cons b p ih =>
    have e : dataOps (b :: p) ++ l = .set .dc true :: .xfer b :: (dataOps p ++ l) := by simp [dataOps]
    rw [e]
    simp only [planOk, hm, ho, if_true, Bool.true_and, Bool.true_or]
    simpa [ho] using ih (d := true)

theorem planOk_fillOps {b : Byte} {n : Nat} {l : List Op} (hm : mayAbort cmd x = true) (ho : own = true)
    (h : planOk c cmd x false own l = true) : planOk c cmd x d own (fillOps b n ++ l) = true := by
  unfold fillOps
  split
  · exact planOk_mono h
  · simp only [List.cons_append, List.nil_append, planOk, hm, ho, Bool.true_and]
    exact ho ▸ h

theorem planOk_streamOps {k n : Nat} {l : List Op} (hm : mayAbort cmd x = true) (ho : own = true)
    (h : planOk c cmd x false own l = true) : planOk c cmd x d own (streamOps k n ++ l) = true := by
  unfold streamOps
  split
  · exact planOk_mono h
  · simp only [List.cons_append, List.nil_append, planOk, hm, ho, Bool.true_and]
    exact ho ▸ h

theorem planOk_ramPayload {l : List Op} (hm : mayAbort cmd x = true) (ho : own = true)
    (h : planOk c cmd x false own l = true) : planOk c cmd x d own (ramPayload c cmd ++ l) = true := by
  cases cmd with
  | none => exact planOk_mono h
  | some i => cases i <;> first | exact planOk_fillOps hm ho h | exact planOk_streamOps hm ho h | exact planOk_mono h

theorem planOk_panels {bs : List Byte} {l : List Op} (hbs : ∀ b ∈ bs, b ∈ panelBytes) (hm : mayAbort cmd x = true)
    (ho : own = true) (h : planOk c cmd x false own l = true) :
    planOk c cmd x d own (bs.map panelOp ++ l) = true := by
  induction bs generalizing d with
  | nil => exact planOk_mono h
  | cons b p ih =>
    simp only [List.map_cons, List.cons_append, panelOp, planOk, hm, ho, hbs b (by simp), decide_true, Bool.true_and]
    simpa [ho] using ih (fun b hb => hbs b (List.mem_cons_of_mem _ hb))

/-! ### The scripts of the session commands -/

theorem planOk_release {e : Err} (h : (x, Sess.closed) ∈ sessMoves) :
    planOk c cmd x d true (releaseTail ++ [.finish .closed e]) = true := by
  simp [releaseTail, planOk, h, ownFits, Settled]

theorem planOk_openScript : planOk c (some .openSession) .opening d false (openScript c) = true := by
  simp only [openScript, resetSeq, initSeq, initBytes, panelOp, List.map, List.cons_append, List.nil_append, planOk]
  simp [mayAbort, abortState, sessMoves, ownFits, Settled]
  decide

theorem planOk_refreshScript (hb : ∀ b ∈ c.turnonBooster, b ∈ panelBytes) (hm : mayAbort cmd .busy = true) :
    planOk c cmd .busy d true (refreshScript c) = true := by
  simp only [refreshScript, turnOn, List.cons_append, List.nil_append, List.append_assoc, panelOp, planOk, hm]
  simp only [show (0x10 : Byte) ∈ panelBytes by decide, show (0x04 : Byte) ∈ panelBytes by decide, decide_true,
    Bool.true_and]
  refine planOk_panels hb hm rfl ?_
  simp [planOk, hm, sessMoves, ownFits, Settled, panelBytes]

theorem planOk_closeScript : planOk c (some .closeSession) .busy d true closeScript = true := by
  simp [closeScript, panelOp, releaseTail, planOk, mayAbort, abortState, sessMoves, ownFits, Settled, panelBytes]

/-! ### Parts of the invariant -/

/-- An abort leaves the sequencer in order. -/
theorem sequencerOk_abort {s : State} {e : Err} (hr : s.run = true) (hm : mayAbort s.cmd s.sess = true)
    (ho : s.own = true ∨ s.cmd ≠ some .closeSession) : SequencerOk c (abort e s) := by
  by_cases h : s.cmd = some .closeSession
  · have hx : s.sess = .busy := by simpa [mayAbort, abortState, h, eq_comm] using hm
    have hown : s.own = true := by tauto
    rw [abort_of_close h]
    simp only [SequencerOk, hr, if_true, hown]
    exact .inr (.inl (planOk_release (by simp [hx, sessMoves])))
  · rw [abort_of_ne_close h]
    simp [SequencerOk, finish, ownFits, Settled]

/-- A completion leaves the sequencer in order. -/
theorem sequencerOk_finish {y : Sess} {e : Err} {s : State} (hy : Settled y) (ho : ownFits y s.own = true) :
    SequencerOk c (finish y e s) := by
  simp [SequencerOk, finish, hy, ho]

/-- A halted command leaves the sequencer in order, since its fault is recorded. -/
theorem sequencerOk_haltCommand {f : ModelFault} {s : State} (hr : s.run = true) :
    SequencerOk c (haltCommand f s) := by
  rw [SequencerOk, haltCommand_run, if_pos hr]
  exact .inr (.inr ⟨rfl, by cases f <;> simp [haltCommand, addFault, record, FaultSet.any]⟩)

/-- A recorded fault leaves the sequencer in order. -/
theorem sequencerOk_addFault {f : ModelFault} {s : State} (h : SequencerOk c s) : SequencerOk c (addFault f s) := by
  unfold SequencerOk at h ⊢
  rw [addFault_run]
  split at h
  · rename_i hr
    rw [if_pos (by simpa using hr)]
    rcases h with h | h | ⟨h, hf⟩
    · exact .inl h
    · exact .inr (.inl h)
    · refine .inr (.inr ⟨h, ?_⟩)
      cases f <;> simp [record, FaultSet.any] at hf ⊢
  · rename_i hr
    rw [if_neg (by simpa using hr)]
    exact h

/-- An abort touches neither a memory nor the trace. -/
theorem abort_memories_trace (e : Err) (s : State) :
    (MemoriesOk c (abort e s) ↔ MemoriesOk c s) ∧ (abort e s).trace = s.trace := by
  obtain ⟨_, _, _, _, _, h⟩ := abort_frame e s
  rw [h]
  exact ⟨Iff.rfl, rfl⟩

/-- A new event keeps the trace in order unless it sends, with DC = 0, a byte that is no command byte. -/
theorem traceOk_cons {tr : List Event} {e : Event} (h : TraceOk tr)
    (he : ∀ b a, e = .xfer false b a → b ∈ panelBytes) : TraceOk (e :: tr) := by
  intro b a hm
  rcases List.mem_cons.mp hm with h1 | h1
  · exact he b a h1.symm
  · exact h b a h1

end Sys2Proof.Machine
end

