-- ==== Sys2Proof/Tests/Slice0.lean ====
section
/-! SUPPORT. The model's own tests. Expected results are from spec/95_test_vectors.md, named at each test, or written out from spec/30_encoding.md. -/

namespace Sys2Proof.Tests

open Sys2Proof.Machine

set_option maxRecDepth 8000

/-- The parameters of 95_test_vectors.md section 0 on a frame of `w × h`, every event `ok`, every sample 1. -/
def tcfg (w h : Nat) : Config where
  W := w
  H := h
  palette := Palette.reference
  fsRound := .truncDiv
  atkWest := .discard
  busyIdleLevel := true
  pollMs := 1
  busyTimeoutMs := 5000
  resetHoldMs := 20
  spiHz := 10000000
  spiMode := 0
  initPayload := fun _ => []
  extraPayload := fun _ => []
  turnonBooster := [0x06]
  ack := fun _ => .ok
  sample := fun _ => some true
  latchTaken := fun _ => false
  holdExtra := fun _ => 0
  timeAtReset := fun _ => 0
  boardLevel := fun _ _ => false

/-! ### Well-formedness: the spec's configuration passes, each broken one is refused -/

theorem test_wellFormed_ok : (tcfg 800 480).wellFormed = true := by decide

theorem test_wellFormed_size : (tcfg 800 0).wellFormed = false ∧ (tcfg 800 0).sizeOk = false := by decide

theorem test_wellFormed_width : (tcfg 3 2).wellFormed = false ∧ (tcfg 3 2).widthEven = false := by decide

theorem test_wellFormed_palette :
    { tcfg 4 2 with palette := { Palette.reference with green := ⟨255, 255, 0⟩ } }.wellFormed = false
    ∧ { tcfg 4 2 with palette := { Palette.reference with green := ⟨255, 255, 0⟩ } }.paletteOk = false := by decide

theorem test_wellFormed_poll :
    { tcfg 4 2 with pollMs := 0 }.wellFormed = false ∧ { tcfg 4 2 with pollMs := 0 }.pollOk = false := by decide

theorem test_wellFormed_booster :
    { tcfg 4 2 with turnonBooster := [0x06, 0x07] }.wellFormed = false
    ∧ { tcfg 4 2 with turnonBooster := [0x06, 0x07] }.boosterOk = false := by decide

theorem test_wellFormed_spi :
    { tcfg 4 2 with spiHz := 20000001 }.wellFormed = false ∧ { tcfg 4 2 with spiHz := 20000001 }.spiOk = false := by
  decide

/-! ### Decoding, from the bits of 30_encoding.md R90 to R95 and R104 -/

theorem test_decode_nearest :
    decodeTableWord 32 0b00000001111111110110010010011011 = some (.nearest 255 100 155) := by decide

theorem test_decode_orient : decodeTableWord 32 0b00000010000000000000000000000000 = some .orient := by decide

theorem test_decode_ditherFs : decodeTableWord 32 0b00000011000000000000000000000000 = some .ditherFs := by decide

theorem test_decode_ditherAtk : decodeTableWord 32 0b00000100000000000000000000000000 = some .ditherAtk := by decide

theorem test_decode_pack : decodeTableWord 32 0b00000101000000000000000000000000 = some .pack := by decide

theorem test_decode_open : decodeTableWord 32 0b00010000000000000000000000000000 = some .openSession := by decide

theorem test_decode_clear : decodeTableWord 32 0b00010001000000000000000000000101 = some (.clear 5) := by decide

theorem test_decode_display : decodeTableWord 32 0b00010010000000101110111000000000 = some (.display 192000) := by
  decide

theorem test_decode_close : decodeTableWord 32 0b00010011000000000000000000000000 = some .closeSession := by decide

theorem test_decode_panel_init :
    [0b10101010, 0b00000001, 0b00000000, 0b00000011, 0b00000101, 0b00000110, 0b00001000].map (decodeTableWord 8) =
      [some .panelCmdh, some .panelPanelSetting, some .panelDriverOutput, some .panelResSetting,
       some .panelBoosterSoftStart1, some .panelBoosterSoftStart2, some .panelBoosterSoftStart3] := by decide

theorem test_decode_panel_init_rest :
    [0b00110000, 0b01010000, 0b01100000, 0b01100001, 0b10000100, 0b11100011].map (decodeTableWord 8) =
      [some .panelPll, some .panelVcom, some .panelTcon, some .panelResolution, some .panelTse,
       some .panelPowerSaving] := by decide

theorem test_decode_panel_others :
    [0b00000100, 0b00010000, 0b00010010, 0b00000010, 0b00000111].map (decodeTableWord 8) =
      [some .panelPowerOn, some .panelWriteRam, some .panelDisplayRefresh, some .panelPowerOff, some .panelDeepSleep] := by
  decide

/-- V-DEC-3, V-DEC-4, V-DEC-7 and V-DEC-12 to V-DEC-16: refused. -/
theorem test_decode_refused :
    [0x02000001, 0x03800000, 0x11000010, 0x00000000, 0x06000000, 0x0F000000, 0x14000000, 0xFF000000].map
      (decodeTableWord 32) = List.replicate 8 none := by decide

/-- A byte that is none of the eighteen, and a length the table does not have. -/
theorem test_decode_refused_other : decodeTableWord 8 0x09 = none ∧ decodeTableWord 16 0x0200 = none := by decide

/-! ### Small states -/

/-- A grey pixel. -/
def g (v : Nat) : Rgb := ⟨BitVec.ofNat 8 v, BitVec.ofNat 8 v, BitVec.ofNat 8 v⟩

/-- A pixel. -/
def px (r g b : Nat) : Rgb := ⟨BitVec.ofNat 8 r, BitVec.ofNat 8 g, BitVec.ofNat 8 b⟩

/-- A memory of the listed pixels. -/
def image (l : List Rgb) : Mem := (l.flatMap fun p => [p.r, p.g, p.b]).zipIdx.map fun q => (q.2, q.1)

/-- A core running the command word `w`, in session state `x`. -/
def running (w : Word32) (x : Sess) : State :=
  { accept w (State.resetWith (tcfg 4 3) 0) with sess := x, own := decide (x ≠ .closed) }

/-- The state an outcome holds, seen through `f`. -/
def seen {α : Type} (f : State → α) (o : Host.Outcome State Fault Refusal) : Option α :=
  match o with
  | .next s => some (f s)
  | _ => none

/-- The identifiers of the first `n` pixels of FRAME_RAM, in row-major order. -/
def ids (n : Nat) (s : State) : List (Option Nat) :=
  (List.range n).map fun i => (readPix s.frameRam n i 0).map fun p => (nearest s.palette p).id.toNat

/-- The raster M of V-FS-5. -/
def rasterM : List Rgb :=
  [px 200 30 30, g 120, g 130, px 10 240 10, px 250 250 5, px 60 60 200, g 128, g 255, g 0, px 90 200 90, px 200 100 50,
   g 40]

/-! ### NEAREST -/

/-- V-NR-3: a tie of white and red; STATUS as section 2.1 says. -/
theorem test_nearest_tie :
    seen (fun s => (s.result, statusWord s)) (exec (.nearest 255 100 155) (running 0x01FF649B .closed)) =
      some (0x01FFFFFF, 0x00010000) := by decide

/-- V-NR-10. -/
theorem test_nearest_one_unit :
    seen State.result (exec (.nearest 127 127 128) (running 0x017F7F80 .idle)) = some 0x050000FF := by decide

/-! ### ORIENT -/

/-- V-ORI-2. -/
theorem test_orient_portrait :
    seen (fun s => s.frameRam)
      (orientCmd (tcfg 4 2) { running 0x02000000 .closed with
        inDim := 0x00040002, inRam := image [g 0, g 1, g 10, g 11, g 20, g 21, g 30, g 31] }) =
      some (image [g 1, g 11, g 21, g 31, g 0, g 10, g 20, g 30]) := by decide

/-- V-ORI-4, (800, 481). -/
theorem test_orient_mismatch :
    seen statusWord (exec .orient { running 0x02000000 .closed with inDim := 0x01E10320 }) = some 0x00020010 := by
  decide

/-! ### DITHER_FS, DITHER_ATK -/

/-- V-FS-3, TruncDiv. -/
theorem test_ditherFs_rounding :
    seen (ids 6) (ditherFsCmd (tcfg 3 2) { running 0x03000000 .closed with
      frameRam := image [g 10, g 200, g 152, g 50, g 60, g 70] }) =
      some [some 0, some 1, some 1, some 0, some 0, some 0] := by decide

/-- V-FS-5. -/
theorem test_ditherFs_mixed :
    seen (ids 12) (ditherFsCmd (tcfg 4 3) { running 0x03000000 .closed with frameRam := image rasterM }) =
      some ([3, 0, 1, 6, 2, 5, 2, 1, 0, 6, 3, 0].map some) := by decide

/-- V-ATK-3: truncation toward zero, the clamp and the tie. -/
theorem test_ditherAtk_negative :
    seen (ids 9) (ditherAtkCmd (tcfg 3 3) { running 0x04000000 .closed with
      frameRam := image ([px 200 250 250, g 250, px 3 250 250] ++ List.replicate 6 (g 250)) }) =
      some ([1, 1, 5, 1, 1, 1, 1, 1, 1].map some) := by decide

/-- V-ATK-5. -/
theorem test_ditherAtk_mixed :
    seen (ids 12) (ditherAtkCmd (tcfg 4 3) { running 0x04000000 .closed with frameRam := image rasterM }) =
      some ([3, 0, 1, 6, 2, 5, 1, 1, 0, 6, 3, 0].map some) := by decide

/-! ### PACK -/

/-- V-PK-5: byte 1 pairs (2,0) with (0,1). -/
theorem test_pack_straddles :
    seen (fun s => s.packRam) (packCmd (tcfg 3 2) { running 0x05000000 .closed with
      frameRam := image [px 255 255 255, px 0 0 0, px 255 0 0, px 0 0 255, px 0 255 0, px 255 255 0] }) =
      some [(0, 0x10), (1, 0x35), (2, 0x62)] := by decide

/-- V-PK-4. -/
theorem test_pack_odd : seen statusWord (packCmd (tcfg 3 1) (running 0x05000000 .closed)) = some 0x00050020 := by decide

/-! ### OPEN, CLEAR, DISPLAY, CLOSE -/

/-- V-SES-1: OPENING, then `Acq` first. -/
theorem test_open_starts :
    seen (fun s => (s.sess, s.run, s.script.head?)) (exec .openSession (running 0x10000000 .closed)) =
      some (.opening, true, some .acq) := by decide

/-- V-SES-7: OPEN in IDLE. -/
theorem test_open_illegal : seen statusWord (exec .openSession (running 0x10000000 .idle)) = some 0x00100064 := by decide

/-- V-SES-7: CLEAR 4 in IDLE and in CLOSED. -/
theorem test_clear_checks :
    seen statusWord (exec (.clear 4) (running 0x11000004 .idle)) = some 0x00110074
    ∧ seen statusWord (exec (.clear 4) (running 0x11000004 .closed)) = some 0x00110060 := by decide

/-- V-SES-3: CLEAR starts with the byte 0x10. -/
theorem test_clear_starts :
    seen (fun s => (s.sess, s.script.head?)) (exec (.clear 0) (running 0x11000000 .idle)) =
      some (.busy, some (.instr (.panel 0x10))) := by decide

/-- V-SES-6: 191999 in IDLE and in CLOSED. -/
theorem test_display_length :
    seen statusWord (exec (.display 191999) (running 0x1202EDFF .idle)) = some 0x00120034
    ∧ seen statusWord (exec (.display 191999) (running 0x1202EDFF .closed)) = some 0x00120060 := by decide

/-- W-8: 192000 is the length that passes. -/
theorem test_display_starts : seen State.sess (exec (.display 192000) (running 0x1202EE00 .idle)) = some .busy := by decide

/-- V-SES-10. -/
theorem test_close_closed : seen statusWord (exec .closeSession (running 0x13000000 .closed)) = some 0x00130000 := by decide

/-- V-SES-11: CLOSE from FAILED with OWN = 0 clears the latches and emits nothing. -/
theorem test_close_unowned :
    seen (fun s => (statusWord s, linesWord s, s.trace))
      (exec .closeSession { running 0x13000000 .failed with own := false, rst := true, pwr := true }) =
      some (0x00130000, 0x00, []) := by decide

/-! ### The panel command bytes -/

/-- A core about to send the panel byte `b` in the command `i`. -/
def sending (b : Byte) (i : Instr) : State :=
  { running 0 .busy with dc := true, cmd := some i, script := [.instr (.panel b), .finish .idle .ok] }

/-- An init byte with the two payload bytes 0x03, 0x20: DC = 0 first, then the byte and its data (44_panel_protocol.md R206 to R208). -/
theorem test_panel_init_payload :
    seen (fun s => (s.dc, s.trace, s.script))
      (initWrite { tcfg 4 3 with initPayload := fun _ => [0x03, 0x20] } 0x61 (sending 0x61 .openSession)) =
      some (false, [.set .dc false .ok],
        [.xfer 0x61, .set .dc true, .xfer 0x03, .set .dc true, .xfer 0x20, .finish .idle .ok]) := by decide

/-- 0x12 is followed by a busy-wait (R227). -/
theorem test_panel_refresh_waits :
    seen State.script (execWith (tcfg 4 3) .panelDisplayRefresh (sending 0x12 (.clear 1))) =
      some [.xfer 0x12, .busyWait 0, .finish .idle .ok] := by decide

/-- 0x10 in CLEAR 1 on 4 × 3: six bytes 0x11 (V-SES-13). -/
theorem test_panel_writeRam_fill :
    seen State.script (execWith (tcfg 4 3) .panelWriteRam (sending 0x10 (.clear 1))) =
      some [.xfer 0x10, .fill 0x11 6, .finish .idle .ok] := by decide

/-- 0x07 with 0xA5 (W-13). -/
theorem test_panel_deepSleep :
    seen State.script (execWith (tcfg 4 3) .panelDeepSleep (sending 0x07 .closeSession)) =
      some [.xfer 0x07, .set .dc true, .xfer 0xA5, .finish .idle .ok] := by decide

/-- V-SES-8's kind of error: the first event of a register write fails. -/
theorem test_panel_busError :
    seen (fun s => (statusWord s, s.dc, s.script))
      (execWith { tcfg 4 3 with ack := fun _ => .err } .panelPowerOn (sending 0x04 (.clear 1))) =
      some (0x0000004A, true, []) := by decide

/-! ### The sequencer and the host port, one step each -/

/-- V-SES-2: the last sample of a stuck wait. -/
theorem test_busyWait_timeout :
    (fun s : State => (s.sess, s.err))
      (microStep { tcfg 4 3 with sample := fun _ => some false, busyTimeoutMs := 3 } (.busyWait 3)
        { sending 0x04 .openSession with sess := .opening }) =
      (.failed, .deviceTimeout) := by decide

/-- V-SES-9: in CLOSE the release tail still follows. -/
theorem test_close_timeout_releases :
    (microStep { tcfg 4 3 with sample := fun _ => some false, busyTimeoutMs := 2 } (.busyWait 2)
        (sending 0x02 .closeSession)).script =
      [.relSet .rst, .relSet .dc, .relSet .pwr, .rel, .finish .closed .deviceTimeout] := by decide

/-- A core at rest with these host actions pending. -/
def asked (q : List HostAct) : State := { State.resetWith (tcfg 4 3) 0 with hostQ := q }

/-- V-MEM-1: a 32-bit write is little-endian. -/
theorem test_mem_write32 :
    seen (fun s => s.inRam) (step (asked [.wr .w32 0x400000 0x44332211])) =
      some [(0, 0x11), (1, 0x22), (2, 0x33), (3, 0x44)] := by decide

/-- V-MEM-2: a 32-bit read. -/
theorem test_mem_read32 :
    seen State.reads
      (step { asked [.rd .w32 0x800004] with frameRam := [(4, 0xAB), (5, 0xCD), (6, 0xEF), (7, 0x01)] }) =
      some [0x01EFCDAB] := by decide

/-- V-MEM-3, V-MEM-4, V-MEM-6: the fault is recorded, and the access has no value and no effect. -/
theorem test_mem_hostAccess :
    ∀ h ∈ [HostAct.wr .w32 0x400002 0, .rd .w8 0x004, .wr .w8 0x519400 0],
      seen (fun s => (s.faults, s.reads, s.inRam)) (step (asked [h])) = some (⟨false, true, false⟩, [], []) := by decide

/-- V-MEM-5, V-MEM-11. -/
theorem test_mem_unwritten_hazard :
    seen (fun s => (s.faults, s.reads)) (step (asked [.rd .w8 0xC00000])) = some (⟨true, false, false⟩, [])
    ∧ seen (fun s => (s.faults, s.script)) (step { asked [.rd .w32 0xC00000] with run := true, script := [.rel] }) =
        some (⟨false, false, true⟩, [.halted]) := by decide

/-- V-MEM-7. -/
theorem test_id : seen State.reads (step (asked [.rd .w32 0x014])) = some [0x01E00320] := by decide

/-- V-SES-1: LINES after OPEN. -/
theorem test_lines : linesWord { asked [] with own := true, busyRaw := true, pwr := true, rst := true } = 0x1D := by decide

/-- V-OVR-1: a CMD write while RUN = 1 is dropped and sets OVR; a STATUS write with bit 8 clear leaves it. -/
theorem test_overrun :
    seen (fun s => (s.ovr, s.script)) (step { asked [.wr .w32 0x000 0x13000000] with run := true, script := [.rel] }) =
      some (true, [.rel])
    ∧ seen State.ovr (step { asked [.wr .w32 0x004 0xFFFFFEFF] with ovr := true }) = some true
    ∧ seen State.ovr (step { asked [.wr .w32 0x004 0x00000100] with ovr := true }) = some false := by decide

/-- A core in the middle of DISPLAY, with a fault recorded, that the platform resets. -/
def resetMidway : State :=
  { sending 0x10 (.display 6) with hostQ := [.reset], packRam := [(0, 0x30)], faults := ⟨false, true, false⟩ }

/-- V-RST-2: a core reset in the middle of a command emits `Rel` and nothing else. -/
theorem test_reset_midway :
    seen (fun s => (s.trace, statusWord s, linesWord s, s.packRam)) (step resetMidway) = some ([.rel], 0, 0, []) := by decide

/-- 70_reset_and_hazards.md R340: the fault set is not cleared. -/
theorem test_reset_keeps_faults : seen State.faults (step resetMidway) = some ⟨false, true, false⟩ := by decide

/-- 30_encoding.md R96, R97 and V-PK-2: the identifiers of a packed byte. -/
theorem test_unpack : unpack [0x30, 0x16] = [3, 0, 1, 6] := by decide

/-- 20_memory.md R63: a transfer's bits, most significant first. -/
theorem test_wireBits : wireBits 0xA5 = [true, false, true, false, false, true, false, true] := by decide

/-- 30_encoding.md R99: register writes are cut before every byte sent with DC = 0. -/
theorem test_registerWrites :
    registerWrites [(false, 0x02), (false, 0x07), (true, 0xA5)] = [(0x02, []), (0x07, [0xA5])] := by decide

/-- 30_encoding.md R101: CLEAR! 1. -/
theorem test_assembler : asmCommandWait (.clear 1) = [.wr .w32 0x000 0x11000001, .wait] := by decide

/-! ### Witnesses: states and operands that meet the hypotheses of each obligation -/

theorem witness_DecodeEncodeRoundTrip : (Instr.clear 5).wellFormed = true := rfl

theorem witness_DecodedCodeReencodes : decode (.panel 0x61) = .ok .panelResolution := rfl

/-- A word for each clause, the refused operands among them. -/
theorem witness_CommandWordDecodesAsTabulated :
    (0x01FFFFFF : Word32).toNat / 2 ^ 24 = 0x01
    ∧ (∀ opc ∈ [0x02, 0x03, 0x04, 0x05, 0x10, 0x13], (BitVec.ofNat 32 (opc * 2 ^ 24)).toNat / 2 ^ 24 = opc
        ∧ (BitVec.ofNat 32 (opc * 2 ^ 24 + 0xFFFFFF)).toNat / 2 ^ 24 = opc)
    ∧ (0x1100000F : Word32).toNat / 2 ^ 24 = 0x11 ∧ (0x11000010 : Word32).toNat / 2 ^ 24 = 0x11
    ∧ (0x12FFFFFF : Word32).toNat / 2 ^ 24 = 0x12
    ∧ (0x14000000 : Word32).toNat / 2 ^ 24 ∉ [0x01, 0x02, 0x03, 0x04, 0x05, 0x10, 0x11, 0x12, 0x13] := by decide

/-- A core with the script `l`, RUN = 1 and the host's actions `q` pending. -/
def inScript (l : List Op) (q : List HostAct) : State := { asked q with run := true, script := l }

theorem witness_StepRunsDecodedInstruction (q : List HostAct) :
    (inScript [.instr (.cmd 0x02000000)] q).run = true
    ∧ (inScript [.instr (.cmd 0x02000000)] q).script = .instr (.cmd 0x02000000) :: []
    ∧ decode (.cmd 0x02000000) = .ok .orient ∧ (inScript [.instr (.cmd 0x02000000)] q).hostQ = q :=
  ⟨rfl, rfl, rfl, rfl⟩

theorem witness_IllegalWordOnlySetsErrAndLastOp :
    (asked [.wr .w32 0x000 0x00000000, .pass]).run = false
    ∧ (asked [.wr .w32 0x000 0x00000000, .pass]).hostQ = .wr .w32 0x000 0x00000000 :: .pass :: []
    ∧ IllegalWord 0x00000000 ∧ IllegalWord 0x02000001 ∧ IllegalWord 0x11000010 := by decide

theorem witness_CmdWriteStartsCommand :
    (asked [.wr .w32 0x000 0x02000000]).run = false
    ∧ (asked [.wr .w32 0x000 0x02000000]).hostQ = .wr .w32 0x000 0x02000000 :: [] := by decide

theorem witness_DroppedWriteOnlySetsOvr :
    (inScript [] [.wr .w32 0x000 1]).run = true ∧ (inScript [] [.wr .w32 0x000 1]).hostQ = .wr .w32 0x000 1 :: []
    ∧ (inScript [] [.wr .w32 0x00C 1]).run = true
    ∧ (inScript [] [.wr .w32 0x00C 1]).hostQ = .wr .w32 0x00C 1 :: [] := by decide

/-- A state with OVR = 1 and a STATUS write that does not clear it. -/
def overrun : State := { asked [.wr .w32 0x004 0x80] with ovr := true }

theorem witness_OvrStaysUntilCleared :
    overrun.ovr = true ∧ step overrun = .next { overrun with hostQ := [] }
    ∧ (∀ v q, overrun.hostQ = .wr .w32 0x004 v :: q → v.getLsbD 8 = false) ∧ ∀ q, overrun.hostQ ≠ .reset :: q := by
  refine ⟨rfl, rfl, fun v q h => ?_, fun q h => ?_⟩
  · cases h
    rfl
  · cases h

/-- A witness for each clause: STATUS, IN_DIM, a read-only register, the first and the last reserved offset. -/
theorem witness_RegisterWritesActAsListed :
    (inScript [] [.wr .w32 0x004 0x100]).hostQ = .wr .w32 0x004 0x100 :: []
    ∧ ((asked [.wr .w32 0x00C 5]).hostQ = .wr .w32 0x00C 5 :: [] ∧ (asked [.wr .w32 0x00C 5]).run = false)
    ∧ (asked [.wr .w32 0x014 5]).hostQ = .wr .w32 0x014 5 :: []
    ∧ (asked [.wr .w32 0x018 5]).hostQ = .wr .w32 0x018 5 :: []
    ∧ (0x3FFFFC : BitVec 24).toNat < 0x400000 ∧ (0x3FFFFC : BitVec 24).toNat % 4 = 0 := by decide

/-- Each register, CMD, a reserved offset and the window's last word. -/
theorem witness_RegisterReadsReturnTheirWords :
    (∀ a, (asked [.rd .w32 a]).hostQ = .rd .w32 a :: [])
    ∧ ∀ a ∈ ([0x000, 0x004, 0x008, 0x00C, 0x010, 0x014, 0x018, 0x3FFFFC] : List (BitVec 24)),
        a.toNat < 0x400000 ∧ a.toNat % 4 = 0 := by
  refine ⟨fun _ => rfl, fun a ha => ?_⟩
  simp only [List.mem_cons, List.not_mem_nil, or_false] at ha
  rcases ha with rfl | rfl | rfl | rfl | rfl | rfl | rfl | rfl <;> decide

/-- The last word of IN_RAM, the last halfword of FRAME_RAM, the last byte of PACK_RAM: window, width, offset, address. -/
theorem edges :
    (HostWindow 0x400000 1152000 State.inRam ∧ HostWidth .w32 4 ∧ (0x5193FC : BitVec 24).toNat = 0x400000 + 1151996
      ∧ 1151996 % 4 = 0 ∧ 1151996 + 4 ≤ 1152000)
    ∧ (HostWindow 0x800000 1152000 State.frameRam ∧ HostWidth .w16 2
      ∧ (0x9193FE : BitVec 24).toNat = 0x800000 + 1151998 ∧ 1151998 % 2 = 0 ∧ 1151998 + 2 ≤ 1152000)
    ∧ (HostWindow 0xC00000 192000 State.packRam ∧ HostWidth .w8 1 ∧ (0xC2EDFF : BitVec 24).toNat = 0xC00000 + 191999
      ∧ 191999 % 1 = 0 ∧ 191999 + 1 ≤ 192000) :=
  ⟨⟨.inl ⟨rfl, rfl, rfl⟩, by decide, rfl, rfl, by decide⟩, ⟨.inr (.inl ⟨rfl, rfl, rfl⟩), by decide, rfl, rfl, by decide⟩,
    ⟨.inr (.inr ⟨rfl, rfl, rfl⟩), by decide, rfl, rfl, by decide⟩⟩

/-- At the addresses of `edges`, whose first conjunct meets the other hypotheses (as do the others). -/
theorem witness_HostMemoryWriteStoresItsBytes (w : Width) (a : BitVec 24) (v : Word32) :
    (HostWindow 0x400000 1152000 State.inRam ∧ HostWidth .w32 4 ∧ (0x5193FC : BitVec 24).toNat = 0x400000 + 1151996
      ∧ 1151996 % 4 = 0 ∧ 1151996 + 4 ≤ 1152000)
    ∧ (asked [.wr w a v]).hostQ = .wr w a v :: [] ∧ (asked [.wr w a v]).run = false := ⟨edges.1, rfl, rfl⟩

theorem witness_HostReadAfterWriteReturnsValue (w : Width) (a : BitVec 24) (v : Word32) :
    (HostWindow 0x800000 1152000 State.frameRam ∧ HostWidth .w16 2
      ∧ (0x9193FE : BitVec 24).toNat = 0x800000 + 1151998 ∧ 1151998 % 2 = 0 ∧ 1151998 + 2 ≤ 1152000)
    ∧ (asked [.wr w a v, .rd w a]).hostQ = .wr w a v :: .rd w a :: [] ∧ (asked [.wr w a v, .rd w a]).run = false :=
  ⟨edges.2.1, rfl, rfl⟩

/-- A misaligned access, and an aligned narrow one at the end of the register window. -/
theorem witness_MisalignedOrNarrowRegisterAccessFaults :
    (HostWidth .w16 2 ∧ (0x400001 : BitVec 24).toNat % 2 ≠ 0)
    ∧ (HostWidth .w8 1 ∧ (0x3FFFFF : BitVec 24).toNat < 0x400000 ∧ 1 ≠ 4)
    ∧ (asked [.rd .w16 0x400001]).hostQ = .rd .w16 0x400001 :: []
    ∧ (asked [.wr .w8 0x3FFFFF 0]).hostQ = .wr .w8 0x3FFFFF 0 :: [] := by decide

/-- The first byte past PACK_RAM and the window's last; PACK_RAM's last byte while RUN = 1; the same byte, never written, with RUN = 0. -/
theorem witness_MemoryAccessFaults :
    HostWindow 0xC00000 192000 State.packRam ∧ HostWidth .w8 1
    ∧ (0xC00000 ≤ (0xC2EE00 : BitVec 24).toNat ∧ (0xC2EE00 : BitVec 24).toNat < 0xC00000 + 0x400000
      ∧ (0xC2EE00 : BitVec 24).toNat % 1 = 0 ∧ 192000 < (0xC2EE00 : BitVec 24).toNat - 0xC00000 + 1)
    ∧ (0xC00000 ≤ (0xFFFFFF : BitVec 24).toNat ∧ (0xFFFFFF : BitVec 24).toNat < 0xC00000 + 0x400000
      ∧ 192000 < (0xFFFFFF : BitVec 24).toNat - 0xC00000 + 1)
    ∧ (0xC00000 ≤ (0xC2EDFF : BitVec 24).toNat ∧ (0xC2EDFF : BitVec 24).toNat < 0xC00000 + 0x400000
      ∧ (0xC2EDFF : BitVec 24).toNat - 0xC00000 + 1 ≤ 192000)
    ∧ (inScript [.rel] [.rd .w8 0xC2EDFF]).run = true ∧ (asked [.rd .w8 0xC2EDFF]).run = false
    ∧ (asked [.rd .w8 0xC2EDFF]).hostQ = .rd .w8 0xC2EDFF :: []
    ∧ ∃ j < 1, readByte (asked [.rd .w8 0xC2EDFF]).packRam ((0xC2EDFF : BitVec 24).toNat - 0xC00000 + j) = none :=
  ⟨edges.2.2.1, by decide, by decide, by decide, by decide, rfl, rfl, rfl, 0, by decide, rfl⟩

theorem witness_NearestFixesPaletteColours :
    Palette.reference.Distinct ∧ (⟨0x6, ⟨0, 255, 0⟩⟩ : PalEntry) ∈ paletteEntries Palette.reference := by decide

theorem witness_OrientRefusesOtherDimensions :
    (asked []).inDim ≠ 0x01E00320 ∧ (asked []).inDim ≠ 0x032001E0 := by decide

/-- A black raster. -/
def black : Raster := fun _ _ => ⟨0, 0, 0⟩

/-- A memory of zeros holds it. -/
theorem holds_black (w h : Nat) : ∃ m, HoldsRaster m w h black :=
  ⟨filled 0 (3 * w * h), fun _ hx _ hy => readPix_filled 0 hx hy⟩

theorem witness_OrientCopiesLandscape :
    ∃ s : State, s.inDim = 0x01E00320 ∧ HoldsRaster s.inRam 800 480 black := by
  obtain ⟨m, hm⟩ := holds_black 800 480
  exact ⟨{ asked [] with inDim := 0x01E00320, inRam := m }, rfl, hm⟩

theorem witness_OrientRotatesPortrait :
    ∃ s : State, s.inDim = 0x032001E0 ∧ HoldsRaster s.inRam 480 800 black := by
  obtain ⟨m, hm⟩ := holds_black 480 800
  exact ⟨{ asked [] with inDim := 0x032001E0, inRam := m }, rfl, hm⟩

/-- A core with a written frame, its palette the reference one. -/
theorem black_frame :
    ∃ s : State, HoldsRaster s.frameRam 800 480 black ∧ s.palette = Palette.reference := by
  obtain ⟨m, hm⟩ := holds_black 800 480
  exact ⟨{ asked [] with frameRam := m }, hm, rfl⟩

/-- A witness for each clause: both input dimensions, an unwritten frame, an unwritten byte of the stream, a halted core. -/
theorem witness_CommandsFaultOnUnwrittenBytes :
    ¬ AllWritten (asked []).inRam 1152000 ∧ ¬ AllWritten (asked []).frameRam 1152000
    ∧ { asked [] with inDim := 0x01E00320 }.inDim = 0x01E00320
    ∧ { asked [] with inDim := 0x032001E0 }.inDim = 0x032001E0
    ∧ ((inScript [.stream 0 6] []).run = true ∧ (inScript [.stream 0 6] []).hostQ = []
      ∧ (inScript [.stream 0 6] []).script = .stream 0 (5 + 1) :: [] ∧ readByte (inScript [.stream 0 6] []).packRam 0 = none)
    ∧ (inScript [.halted] []).script = [.halted] :=
  ⟨fun h => h 0 (by omega) rfl, fun h => h 0 (by omega) rfl, rfl, rfl, by decide, rfl⟩

theorem witness_DitherFsIsTheRasterPass : ∃ s : State, HoldsRaster s.frameRam 800 480 black :=
  black_frame.imp fun _ h => h.1

theorem witness_DitherAtkIsTheRasterPass : ∃ s : State, HoldsRaster s.frameRam 800 480 black :=
  black_frame.imp fun _ h => h.1

/-- A memory with its first `n` bytes written. -/
theorem written_memory (n : Nat) : ∃ m, AllWritten m n := ⟨filled 0 n, allWritten_filled 0 n⟩

theorem witness_DitheredFrameIsPaletteColours : ∃ s : State, AllWritten s.frameRam 1152000 := by
  obtain ⟨m, hm⟩ := written_memory 1152000
  exact ⟨{ asked [] with frameRam := m }, hm⟩

theorem witness_DitherFixesPaletteFrame :
    ∃ s : State, HoldsRaster s.frameRam 800 480 black ∧ ∀ x < 800, ∀ y < 480, black x y ∈ s.palette.colours := by
  obtain ⟨s, hs, hp⟩ := black_frame
  refine ⟨s, hs, fun x _ y _ => ?_⟩
  rw [hp]
  exact List.mem_cons_self

theorem witness_PackWritesIdentifierPairs : ∃ s : State, HoldsRaster s.frameRam 800 480 black :=
  black_frame.imp fun _ h => h.1

theorem witness_UnpackRecoversIdentifiers : ∃ s : State, HoldsRaster s.frameRam 800 480 black :=
  black_frame.imp fun _ h => h.1

/-- A reduced instance with an odd pixel count; a state whose ERR is 2 and an instruction that leaves it. -/
theorem witness_PackRefusesOddPixelCount :
    (tcfg 3 1).W * (tcfg 3 1).H % 2 = 1
    ∧ exec .openSession { asked [] with err := .oddPixelCount } =
        .next { asked [] with
          err := .oddPixelCount, sess := .opening, cmd := some .openSession, script := openScript Config.epd6 } :=
  ⟨rfl, rfl⟩

theorem witness_OpenStartsFromClosed : (running 0x10000000 .closed).sess = .closed := rfl

theorem witness_ClearAndDisplayStartFromIdle :
    (running 0 .idle).sess = .idle ∧ (0x6 : PalId) ∈ ([0x0, 0x1, 0x2, 0x3, 0x5, 0x6] : List PalId) := by decide

theorem witness_CloseActsByState :
    (running 0 .closed).sess = .closed ∧ ((running 0 .failed).sess = .failed ∧ (running 0 .failed).own = true)
    ∧ (let s := { running 0 .failed with own := false }; s.sess = .failed ∧ s.own = false)
    ∧ (running 0 .idle).sess = .idle := by decide

theorem witness_WrongStateRaisesIllegalState :
    (running 0 .failed).sess ≠ .closed ∧ (running 0 .failed).sess ≠ .idle := by decide

theorem witness_WrongLengthRaisesSizeMismatch :
    (running 0 .idle).sess = .idle ∧ (191999 : BitVec 24) ≠ 192000 ∧ (192001 : BitVec 24) ≠ 192000
    ∧ exec (.display 191999) (running 0 .idle) = .next (complete .sizeMismatch (running 0 .idle))
    ∧ (running 0 .idle).err ≠ .sizeMismatch := ⟨rfl, by decide, by decide, rfl, by decide⟩

theorem witness_ClearRefusesNonPaletteId :
    (running 0 .idle).sess = .idle
    ∧ ∀ id ∈ ([0x4, 0x7, 0xF] : List PalId), id ∉ ([0x0, 0x1, 0x2, 0x3, 0x5, 0x6] : List PalId) := by decide

/-- The clauses about the environment's answer: whatever it is, one of them applies. -/
theorem witness_PlainPanelBytesStartTheirWrite (s : State) :
    Config.epd6.ack s.draws = .ok ∨ Config.epd6.ack s.draws = .err := ack_cases _

theorem witness_WaitingPanelBytesStartTheirWrite (s : State) :
    Config.epd6.ack s.draws = .ok ∨ Config.epd6.ack s.draws = .err := ack_cases _

theorem witness_WriteRamStartsItsStream :
    (sending 0x10 (.clear 1)).cmd = some (.clear 1)
    ∧ (sending 0x10 (.display 192000)).cmd = some (.display 192000) ∧ (192000 : BitVec 24) ≠ 0 := by decide

theorem tcfg_allOk (w h : Nat) : AllOk (tcfg w h) := ⟨fun _ => rfl, fun _ => rfl⟩

/-- One byte of each of the three kinds, the first with a payload. -/
theorem witness_RegisterWriteReachesTheBus :
    AllOk { tcfg 4 3 with initPayload := fun _ => [0x03] } ∧ AllOk (tcfg 4 3)
    ∧ (∀ b ∈ ([0x61, 0x04, 0x07] : List Byte), (sending b .closeSession).run = true
        ∧ (sending b .closeSession).hostQ = []
        ∧ (sending b .closeSession).script = .instr (.panel b) :: [.finish .idle .ok])
    ∧ { tcfg 4 3 with initPayload := fun _ => [0x03] }.initPayload 0x61 = [0x03]
    ∧ (tcfg 4 3).extraPayload 0x04 = [] :=
  ⟨⟨fun _ => rfl, fun _ => rfl⟩, tcfg_allOk 4 3, by decide, rfl, rfl⟩

theorem witness_LineAndBusEventsAct (op : Op) :
    (inScript [op] []).run = true ∧ (inScript [op] []).hostQ = [] ∧ (inScript [op] []).script = op :: []
    ∧ (Config.epd6.ack (inScript [op] []).draws = .ok ∨ Config.epd6.ack (inScript [op] []).draws = .err) :=
  ⟨rfl, rfl, rfl, ack_cases _⟩

/-- The last byte and an earlier one of a fill, and a byte that the stream reads. -/
theorem witness_LineAndBusEventsAct_bytes :
    (inScript [.fill 0x11 1] []).script = .fill 0x11 (0 + 1) :: []
    ∧ (inScript [.fill 0x11 6] []).script = .fill 0x11 (5 + 1) :: []
    ∧ (inScript [.stream 5 1] []).script = .stream 5 (0 + 1) :: []
    ∧ readByte { inScript [.stream 5 1] [] with packRam := [(5, 0x30)] }.packRam 5 = some 0x30 := by decide

theorem witness_HoldLastsAtLeastItsTime :
    (inScript [.hold 20] []).run = true ∧ (inScript [.hold 20] []).hostQ = []
    ∧ (inScript [.hold 20] []).script = .hold 20 :: [] := by decide

/-- At the bound and before it; and whatever the sample is, one clause applies. -/
theorem witness_BusyWaitPollsUntilIdle (k : Nat) :
    (inScript [.busyWait k] []).run = true ∧ (inScript [.busyWait k] []).hostQ = []
    ∧ (inScript [.busyWait k] []).script = .busyWait k :: []
    ∧ (inScript [.pollHold k] []).script = .pollHold k :: []
    ∧ (Config.epd6.sample (inScript [.busyWait k] []).draws = none
      ∨ ∃ v, Config.epd6.sample (inScript [.busyWait k] []).draws = some v
          ∧ (v = Config.epd6.busyIdleLevel
            ∨ (v ≠ Config.epd6.busyIdleLevel ∧ (k = Config.epd6.busyTimeoutMs ∨ k ≠ Config.epd6.busyTimeoutMs)))) := by
  refine ⟨rfl, rfl, rfl, rfl, ?_⟩
  cases h : Config.epd6.sample (inScript [.busyWait k] []).draws with
  | none => exact .inl rfl
  | some v => exact .inr ⟨v, rfl, by tauto⟩

theorem witness_ReleaseTailAlwaysCloses :
    (inScript [.relSet .rst, .relSet .dc, .relSet .pwr, .rel, .finish .closed .busError] []).run = true
    ∧ (inScript [.relSet .rst, .relSet .dc, .relSet .pwr, .rel, .finish .closed .busError] []).hostQ = [] := by decide

theorem witness_OpenSendsItsEvents :
    AllOk (tcfg 4 3) ∧ HoldsCommand 0x10000000 (running 0x10000000 .closed)
    ∧ (running 0x10000000 .closed).sess = .closed := ⟨tcfg_allOk 4 3, by decide, rfl⟩

theorem witness_ClearSendsItsEvents :
    AllOk (tcfg 4 3) ∧ (tcfg 4 3).boosterOk = true ∧ (0x1 : PalId) ∈ ([0x0, 0x1, 0x2, 0x3, 0x5, 0x6] : List PalId)
    ∧ HoldsCommand ((0x1100000 : BitVec 28) ++ (0x1 : PalId)) (running 0x11000001 .idle)
    ∧ (running 0x11000001 .idle).sess = .idle := ⟨tcfg_allOk 4 3, by decide, by decide, by decide, rfl⟩

theorem witness_DisplaySendsItsEvents :
    AllOk (tcfg 4 3) ∧ (tcfg 4 3).boosterOk = true ∧ (tcfg 4 3).W / 2 * (tcfg 4 3).H < 2 ^ 24
    ∧ (∀ k < (tcfg 4 3).W / 2 * (tcfg 4 3).H,
        readByte { running 0x12000006 .idle with packRam := filled 0x11 6 }.packRam k = some 0x11)
    ∧ HoldsCommand ((0x12 : Byte) ++ BitVec.ofNat 24 ((tcfg 4 3).W / 2 * (tcfg 4 3).H))
        { running 0x12000006 .idle with packRam := filled 0x11 6 }
    ∧ { running 0x12000006 .idle with packRam := filled 0x11 6 }.sess = .idle :=
  ⟨tcfg_allOk 4 3, by decide, by decide, by decide, by decide, rfl⟩

theorem witness_CloseSendsItsEvents :
    AllOk (tcfg 4 3) ∧ HoldsCommand 0x13000000 (running 0x13000000 .idle) ∧ (running 0x13000000 .idle).sess = .idle :=
  ⟨tcfg_allOk 4 3, by decide, rfl⟩

theorem witness_StuckBusyTimesOut :
    (∀ n, { tcfg 4 3 with sample := fun _ => some false }.ack n = .ok)
    ∧ (∀ n, { tcfg 4 3 with sample := fun _ => some false }.sample n = some (!(tcfg 4 3).busyIdleLevel))
    ∧ HoldsCommand 0x10000000 (running 0x10000000 .closed) ∧ (running 0x10000000 .closed).sess = .closed :=
  ⟨fun _ => rfl, fun _ => rfl, by decide, rfl⟩

/-- OPEN from CLOSED; CLEAR and DISPLAY from IDLE; CLOSE from IDLE. -/
theorem witness_TraceLengthsAreAsListed :
    AllOk (tcfg 4 3) ∧ (tcfg 4 3).turnonBooster = [0x06]
    ∧ ((running 0x10000000 .closed).sess = .closed ∧ HoldsCommand 0x10000000 (running 0x10000000 .closed))
    ∧ ((running 0x11000001 .idle).sess = .idle
      ∧ HoldsCommand ((0x1100000 : BitVec 28) ++ (0x1 : PalId)) (running 0x11000001 .idle))
    ∧ ((∀ k < 6, readByte { running 0x12000006 .idle with packRam := filled 0x11 6 }.packRam k ≠ none)
      ∧ HoldsCommand ((0x12 : Byte) ++ BitVec.ofNat 24 6) { running 0x12000006 .idle with packRam := filled 0x11 6 })
    ∧ HoldsCommand 0x13000000 (running 0x13000000 .idle) :=
  ⟨tcfg_allOk 4 3, by decide, by decide, by decide, by decide, by decide⟩

theorem asked_inv (q : List HostAct) : Inv (asked q) := by
  refine ⟨⟨wf_nil _, wf_nil _, wf_nil _⟩, ?_, fun b a h => absurd h (List.not_mem_nil)⟩
  simp [SequencerOk, asked, State.resetWith, Settled, ownFits]

theorem witness_StepKeepsInvariant :
    Inv (asked [.pass]) ∧ step (asked [.pass]) = .next (asked []) := ⟨asked_inv _, rfl⟩

/-- A core that has accepted OPEN meets the invariant, and its step changes SESS. -/
theorem witness_SessionMovesOnlyAsListed :
    Inv (running 0x10000000 .closed)
    ∧ step (running 0x10000000 .closed) =
        .next (startCommand .openSession .opening (openScript Config.epd6) (running 0x10000000 .closed)) := by
  refine ⟨⟨⟨wf_nil _, wf_nil _, wf_nil _⟩, ?_, fun b a h => absurd h (List.not_mem_nil)⟩, rfl⟩
  rw [SequencerOk, if_pos (show (running 0x10000000 .closed).run = true from rfl)]
  exact .inl ⟨.inl rfl, rfl, _, rfl⟩

theorem witness_EveryCommandEnds :
    Inv (running 0x10000000 .closed) ∧ (running 0x10000000 .closed).hostQ = []
    ∧ (running 0x10000000 .closed).script ≠ [.halted] :=
  ⟨witness_SessionMovesOnlyAsListed.1, rfl, by decide⟩

theorem witness_InstructionsChangeOnlyTheirState :
    exec .closeSession (running 0x13000000 .closed) = .next (complete .ok (running 0x13000000 .closed)) := rfl

/-- An IN_DIM write, and a step with every fault recorded before it. -/
theorem witness_RomFaultsAndInputsKeep :
    step (asked [.wr .w32 0x00C 0x01E00320]) = .next { asked [] with inDim := 0x01E00320 }
    ∧ step { asked [.pass] with faults := ⟨true, true, true⟩ } = .next { asked [] with faults := ⟨true, true, true⟩ } :=
  ⟨rfl, rfl⟩

theorem witness_CoreResetLeavesResetValues :
    (inScript [.rel] [.reset]).hostQ = .reset :: [] ∧ (inScript [.rel] [.reset]).own = false
    ∧ { inScript [.rel] [.reset] with own := true }.own = true := by decide

end Sys2Proof.Tests
end

section
/-! SUPPORT. What one instruction can do, said once: an instruction is a command word or a panel command byte; a command has one of ten effects, a panel command byte starts its register write. -/

namespace Sys2Proof.Machine

/-! ### The two kinds of instruction -/

/-- A word decodes to a command, never to a panel command byte (30_encoding.md R103). -/
theorem encode_of_decodeCommand {w : Word32} {i : Instr} (h : decodeCommand w = .ok i) : ∃ w', encode i = .cmd w' := by
  simp only [decodeCommand, decodeBare, decodeClear] at h
  split_ifs at h <;> cases h <;> exact ⟨_, rfl⟩

/-- A byte decodes to the panel command of this byte (R104). -/
theorem encode_of_decodePanel {b : Byte} {i : Instr} (h : decodePanel b = .ok i) : encode i = .panel b := by
  simp only [decodePanel, ite_eq_iff, Except.ok.injEq, reduceCtorEq, and_false, or_false] at h
  repeat
    obtain ⟨rfl, rfl⟩ | ⟨-, h⟩ := h
    · rfl
  obtain ⟨rfl, rfl⟩ := h
  rfl

/-- What follows the payload of a panel command byte: nothing, the busy-wait, or the data bytes of the command in progress (44_panel_protocol.md R212 to R230). -/
abbrev WriteTail (c : Config) (cmd : Option Instr) (after : List Op) : Prop :=
  after = [] ∨ after = [.busyWait 0] ∨ after = ramPayload c cmd

/-- A panel command byte starts its register write, whatever the state. -/
theorem execWith_panel (c : Config) {i : Instr} {b : Byte} (s : State) (h : encode i = .panel b) :
    ∃ payload after, WriteTail c s.cmd after ∧ execWith c i s = .next (writeReg c b payload after s) := by
  cases i <;> cases h
  case panelPowerOn | panelDisplayRefresh | panelPowerOff => exact ⟨_, _, .inr (.inl rfl), rfl⟩
  case panelWriteRam => exact ⟨_, _, .inr (.inr rfl), rfl⟩
  all_goals exact ⟨_, _, .inl rfl, rfl⟩

/-! ### The effects of a command -/

/-- The commands that write FRAME_RAM. -/
abbrev WritesFrame (i : Instr) : Prop := i = .orient ∨ i = .ditherFs ∨ i = .ditherAtk

/-- What command `i` can make of the state `s`, when it answers. -/
inductive CommandEffect (c : Config) (s : State) : Instr → State → Prop where
  /-- An end with a code and no other change: every refusal, and CLOSE in CLOSED. -/
  | ends (i : Instr) (e : Err) : CommandEffect c s i (complete e s)
  /-- NEAREST (40_quantizer.md R134). -/
  | nearest (r g b : Byte) :
    CommandEffect c s (.nearest r g b) (complete .ok { s with result := resultWord (nearest s.palette ⟨r, g, b⟩) })
  /-- ORIENT and the dithers: a frame that keeps the canonical form. -/
  | frame {i : Instr} {m : Mem} (hi : WritesFrame i)
    (hm : Mem.wf s.frameRam (frameSize c) → Mem.wf m (frameSize c)) :
    CommandEffect c s i (complete .ok { s with frameRam := m })
  /-- PACK: a buffer that keeps the canonical form. -/
  | packed {m : Mem} (hm : Mem.wf s.packRam (packSize c) → Mem.wf m (packSize c)) :
    CommandEffect c s .pack (complete .ok { s with packRam := m })
  /-- A byte never written was read (60_exceptions.md R309). -/
  | unwritten {i : Instr} (hi : WritesFrame i ∨ i = .pack) : CommandEffect c s i (haltCommand .unwrittenRead s)
  /-- OPEN from CLOSED (45_session.md R260). -/
  | opens (hx : s.sess = .closed) :
    CommandEffect c s .openSession (startCommand .openSession .opening (openScript c) s)
  /-- CLEAR and DISPLAY from IDLE (R261, R262). -/
  | refreshes {i : Instr} (hi : (∃ id, i = .clear id) ∨ ∃ len, i = .display len) (hx : s.sess = .idle) :
    CommandEffect c s i (startCommand i .busy (refreshScript c) s)
  /-- CLOSE from IDLE (R263). -/
  | closes (hx : s.sess = .idle) :
    CommandEffect c s .closeSession (startCommand .closeSession .busy closeScript s)
  /-- CLOSE from FAILED with the lines owned (R263). -/
  | releases (hx : s.sess = .failed) (ho : s.own = true) :
    CommandEffect c s .closeSession
      (startCommand .closeSession .failed (releaseTail ++ [.finish .closed .ok]) s)
  /-- CLOSE from FAILED with the lines not owned (R263). -/
  | forgets (hx : s.sess = .failed) (ho : s.own = false) :
    CommandEffect c s .closeSession (finish .closed .ok { s with rst := false, dc := false, pwr := false })

variable {c : Config} {s t : State}

/-- A pixel command answers with its result, or halts at a byte never written. -/
theorem orUnwritten_next {α : Type} {r : Option α} {k : α → State} (h : orUnwritten r s k = .next t) :
    (∃ x, r = some x ∧ t = k x) ∨ t = haltCommand .unwrittenRead s := by
  cases r with
  | none => exact .inr (by cases h; rfl)
  | some x => exact .inl ⟨x, rfl, by cases h; rfl⟩

theorem orientCmd_effect (h : orientCmd c s = .next t) : CommandEffect c s .orient t := by
  unfold orientCmd at h
  split at h
  · cases h
    exact .ends _ _
  · obtain ⟨m, hm, rfl⟩ | rfl := orUnwritten_next h
    · exact .frame (.inl rfl) fun hw => wf_orientFrame hw hm
    · exact .unwritten (.inl (.inl rfl))

theorem ditherFsCmd_effect (h : ditherFsCmd c s = .next t) : CommandEffect c s .ditherFs t := by
  obtain ⟨m, hm, rfl⟩ | rfl := orUnwritten_next h
  · exact .frame (.inr (.inl rfl)) fun hw => wf_ditherPass (fun _ _ _ _ _ _ => fsShares_in) hw hm
  · exact .unwritten (.inl (.inr (.inl rfl)))

theorem ditherAtkCmd_effect (h : ditherAtkCmd c s = .next t) : CommandEffect c s .ditherAtk t := by
  obtain ⟨m, hm, rfl⟩ | rfl := orUnwritten_next h
  · exact .frame (.inr (.inr rfl)) fun hw => wf_ditherPass (fun _ _ _ _ _ _ => atkShares_in) hw hm
  · exact .unwritten (.inl (.inr (.inr rfl)))

theorem packCmd_effect (h : packCmd c s = .next t) : CommandEffect c s .pack t := by
  unfold packCmd at h
  split at h
  · cases h
    exact .ends _ _
  · obtain ⟨m, hm, rfl⟩ | rfl := orUnwritten_next h
    · exact .packed fun hw => wf_packLoop hw hm
    · exact .unwritten (.inr rfl)

theorem openCmd_effect (h : openCmd c s = .next t) : CommandEffect c s .openSession t := by
  unfold openCmd at h
  split at h <;> cases h
  · exact .opens ‹_›
  · exact .ends _ _

theorem clearCmd_effect {id : PalId} (h : clearCmd c id s = .next t) : CommandEffect c s (.clear id) t := by
  unfold clearCmd at h
  split at h
  · split at h <;> cases h
    · exact .refreshes (.inl ⟨id, rfl⟩) ‹_›
    · exact .ends _ _
  · cases h
    exact .ends _ _

theorem displayCmd_effect {len : BitVec 24} (h : displayCmd c len s = .next t) :
    CommandEffect c s (.display len) t := by
  unfold displayCmd at h
  split at h
  · split at h <;> cases h
    · exact .refreshes (.inr ⟨len, rfl⟩) ‹_›
    · exact .ends _ _
  · cases h
    exact .ends _ _

theorem closeCmd_effect (h : closeCmd s = .next t) : CommandEffect c s .closeSession t := by
  unfold closeCmd at h
  split at h
  · cases h
    exact .ends _ _
  · split at h <;> cases h
    · exact .releases ‹_› ‹_›
    · exact .forgets ‹_› (by simpa using ‹¬s.own = true›)
  · cases h
    exact .closes ‹_›
  all_goals cases h

/-- Every command that answers has one of the effects. -/
theorem execWith_command {i : Instr} {w : Word32} (hi : encode i = .cmd w) (h : execWith c i s = .next t) :
    CommandEffect c s i t := by
  cases i with
  | nearest r g b =>
    cases h
    exact .nearest r g b
  | orient => exact orientCmd_effect h
  | ditherFs => exact ditherFsCmd_effect h
  | ditherAtk => exact ditherAtkCmd_effect h
  | pack => exact packCmd_effect h
  | openSession => exact openCmd_effect h
  | clear id => exact clearCmd_effect h
  | display len => exact displayCmd_effect h
  | closeSession => exact closeCmd_effect h
  | _ => cases hi

end Sys2Proof.Machine
end

section
/-! SUPPORT. For the settling of O55 and O54: every step keeps the invariant, operation by operation, under any parameters whose booster bytes 00_scope.md R6 admits. -/

namespace Sys2Proof.Machine

variable {c : Config} {s t : State}

/-! ### Two ways to meet the invariant with RUN = 1 -/

/-- A running core inside a script that keeps the rules. -/
theorem invWith_of_planOk (hm : MemoriesOk c s) (ht : TraceOk s.trace) (hr : s.run = true)
    (hp : planOk c s.cmd s.sess s.dc s.own s.script = true) : InvWith c s :=
  ⟨hm, by rw [SequencerOk, if_pos hr]; exact .inr (.inl hp), ht⟩

/-- An abort by a command that may abort and owns the lines, or is no CLOSE. -/
theorem invWith_abort {e : Err} (hm : MemoriesOk c s) (ht : TraceOk s.trace) (hr : s.run = true)
    (ha : mayAbort s.cmd s.sess = true) (ho : s.own = true ∨ s.cmd ≠ some .closeSession) : InvWith c (abort e s) := by
  obtain ⟨hmem, htr⟩ := abort_memories_trace (c := c) e s
  exact ⟨hmem.mpr hm, sequencerOk_abort hr ha ho, htr ▸ ht⟩

/-- A halt of a running core by a model fault. -/
theorem invWith_haltCommand {f : ModelFault} (hm : MemoriesOk c s) (ht : TraceOk s.trace) (hr : s.run = true) :
    InvWith c (haltCommand f s) :=
  ⟨hm, sequencerOk_haltCommand hr, ht⟩

/-- A completion in a settled state with the lines as that state requires. -/
theorem invWith_finish {y : Sess} {e : Err} (hm : MemoriesOk c s) (ht : TraceOk s.trace) (hy : Settled y)
    (ho : ownFits y s.own = true) : InvWith c (finish y e s) :=
  ⟨hm, sequencerOk_finish hy ho, ht⟩

/-! ### The operations of a script -/

section
variable (hm : MemoriesOk c s) (ht : TraceOk s.trace) (hr : s.run = true)
include hm ht hr

/-- `Set(l, v)` whose outcome is ignored; the script must be safe whatever level a failed `Set` of DC leaves. -/
theorem invWith_driveLine {l : Line} {v : Bool} (hp : planOk c s.cmd s.sess false s.own s.script = true) :
    InvWith c (driveLine c l v s) := by
  obtain ⟨u, h⟩ := driveLine_form c l v s
  rw [h]
  exact invWith_of_planOk (by simpa [MemoriesOk] using hm) (traceOk_cons (by simpa using ht) (by simp)) (by simpa using hr)
    (by simpa using planOk_mono hp)

/-- `Set(l, v)` in a command that may abort. -/
theorem invWith_setLine {l : Line} {v : Bool} (ha : mayAbort s.cmd s.sess = true) (ho : s.own = true)
    (hp : planOk c s.cmd s.sess (if l = .dc then v else s.dc) s.own s.script = true) : InvWith c (setLine c l v s) := by
  rcases ack_cases (c.ack s.draws) with h | h
  · rw [setLine_ok h]
    exact invWith_of_planOk (by simpa [MemoriesOk] using hm) (traceOk_cons (by simpa using ht) (by simp))
      (by simpa using hr) (by simpa [setLatch_dc_eq] using hp)
  · obtain ⟨u, h⟩ := setLine_err (l := l) (v := v) h
    rw [h]
    exact invWith_abort (by simpa [MemoriesOk] using hm) (traceOk_cons (by simpa using ht) (by simp))
      (by simpa using hr) (by simpa using ha) (by simp [ho])

/-- `Xfer(b)`: with DC = 0 only of a panel command byte. -/
theorem invWith_transfer {b : Byte} (ha : mayAbort s.cmd s.sess = true) (ho : s.own = true)
    (hb : s.dc = true ∨ b ∈ panelBytes) (hp : planOk c s.cmd s.sess s.dc s.own s.script = true) :
    InvWith c (transfer c b s) := by
  have htr (a : Ack) : TraceOk (.xfer s.dc b a :: s.trace) := by
    refine traceOk_cons ht fun b' a' h => ?_
    simp only [Event.xfer.injEq] at h
    obtain ⟨hd, rfl, -⟩ := h
    exact hb.resolve_left (by simp [hd])
  rcases ack_cases (c.ack s.draws) with h | h
  · rw [transfer_ok h]
    exact invWith_of_planOk hm (htr _) hr hp
  · rw [transfer_err h]
    exact invWith_abort hm (htr _) hr ha (.inl ho)

/-- `Acquire()` in OPEN. -/
theorem invWith_acquire (hc : s.cmd = some .openSession) (hx : s.sess = .opening)
    (hp : planOk c s.cmd s.sess s.dc true s.script = true) : InvWith c (acquire c s) := by
  rcases ack_cases (c.ack s.draws) with h | h
  · rw [acquire_ok h]
    exact invWith_of_planOk hm (traceOk_cons ht (by simp)) hr hp
  · rw [acquire_err h]
    exact invWith_abort hm (traceOk_cons ht (by simp)) hr (by simp [hc, hx, mayAbort, abortState]) (.inr (by simp [hc]))

/-- `Hold(t)`. -/
theorem invWith_holdFor {n : Nat} (hp : planOk c s.cmd s.sess s.dc s.own s.script = true) : InvWith c (holdFor c n s) :=
  invWith_of_planOk hm (traceOk_cons ht (by simp)) hr hp

/-- The sample of `BusyWait()` with at most `n_poll` intervals waited. -/
theorem invWith_pollBusy {k : Nat} (ha : mayAbort s.cmd s.sess = true) (ho : s.own = true) (hk : k ≤ nPoll c)
    (hp : planOk c s.cmd s.sess s.dc s.own s.script = true) : InvWith c (pollBusy c k s) := by
  have htr (v : Option Bool) : TraceOk (.sample v :: s.trace) := traceOk_cons ht (by simp)
  cases h : c.sample s.draws with
  | none =>
    rw [pollBusy_err h]
    exact invWith_abort hm (htr _) hr ha (.inl ho)
  | some v =>
    by_cases hv : v = c.busyIdleLevel
    · rw [pollBusy_idle (hv ▸ h)]
      exact invWith_of_planOk hm (htr _) hr hp
    · by_cases hn : k = nPoll c
      · rw [hn, pollBusy_timeout h hv]
        exact invWith_abort hm (htr _) hr ha (.inl ho)
      · rw [pollBusy_again h hv hn]
        have hlt : k < nPoll c := by omega
        exact invWith_of_planOk hm (htr _) hr (by simpa [planOk, ha, ho, hlt] using hp)

/-- `SendData(b)` begins, with `after` to follow. -/
theorem invWith_sendData {b : Byte} {after : List Op} (ha : mayAbort s.cmd s.sess = true) (ho : s.own = true)
    (hp : planOk c s.cmd s.sess true s.own (after ++ s.script) = true) : InvWith c (sendData c b after s) :=
  invWith_setLine (s := { s with script := .xfer b :: (after ++ s.script) }) hm ht hr ha ho
    (by simpa [planOk, ha, ho] using hp)

/-- `Rel`. -/
theorem invWith_release (hp : planOk c s.cmd s.sess s.dc false s.script = true) : InvWith c (release s) :=
  invWith_of_planOk hm (traceOk_cons ht (by simp)) hr hp

end

/-- Every operation but a fetch, taken off the head of a script that keeps the rules, keeps the invariant. -/
theorem invWith_microStep {op : Op} (hm : MemoriesOk c s) (ht : TraceOk s.trace) (hr : s.run = true)
    (hop : ∀ k, op ≠ .instr k) (hp : planOk c s.cmd s.sess s.dc s.own (op :: s.script) = true) :
    InvWith c (microStep c op s) := by
  cases op with
  | instr k => exact absurd rfl (hop k)
  | acq =>
    simp only [planOk, Bool.and_eq_true, decide_eq_true_eq] at hp
    obtain ⟨⟨⟨hc, hx⟩, -⟩, hp⟩ := hp
    exact invWith_acquire hm ht hr hc hx hp
  | set l v =>
    simp only [planOk, Bool.and_eq_true] at hp
    obtain ⟨⟨ha, ho⟩, hp⟩ := hp
    exact invWith_setLine hm ht hr ha ho hp
  | xfer b =>
    simp only [planOk, Bool.and_eq_true, Bool.or_eq_true, decide_eq_true_eq] at hp
    obtain ⟨⟨⟨ha, ho⟩, hb⟩, hp⟩ := hp
    exact invWith_transfer hm ht hr ha ho hb hp
  | hold n => exact invWith_holdFor hm ht hr hp
  | busyWait k =>
    simp only [planOk, Bool.and_eq_true, decide_eq_true_eq] at hp
    obtain ⟨⟨⟨ha, ho⟩, hk⟩, hp⟩ := hp
    exact invWith_pollBusy hm ht hr ha ho hk hp
  | pollHold k =>
    simp only [planOk, Bool.and_eq_true, decide_eq_true_eq] at hp
    obtain ⟨⟨⟨ha, ho⟩, hk⟩, hp⟩ := hp
    have hk' : k + 1 ≤ nPoll c := hk
    exact invWith_holdFor (s := { s with script := .busyWait (k + 1) :: s.script }) hm ht hr
      (by simpa [planOk, ha, ho, hk'] using hp)
  | fill b n =>
    simp only [planOk, Bool.and_eq_true] at hp
    obtain ⟨⟨ha, ho⟩, hp⟩ := hp
    cases n with
    | zero => exact invWith_of_planOk hm ht hr (planOk_mono hp)
    | succ n => exact invWith_sendData hm ht hr ha ho (planOk_fillOps ha ho hp)
  | stream k n =>
    simp only [planOk, Bool.and_eq_true] at hp
    obtain ⟨⟨ha, ho⟩, hp⟩ := hp
    cases n with
    | zero => exact invWith_of_planOk hm ht hr (planOk_mono hp)
    | succ n =>
      simp only [microStep]
      split
      · exact invWith_haltCommand hm ht hr
      · exact invWith_sendData hm ht hr ha ho (planOk_streamOps ha ho hp)
  | sess x =>
    simp only [planOk, Bool.and_eq_true] at hp
    exact invWith_of_planOk hm ht hr hp.2
  | relSet l =>
    simp only [planOk, Bool.and_eq_true] at hp
    exact invWith_driveLine hm ht hr hp.2
  | rel =>
    simp only [planOk, Bool.and_eq_true] at hp
    exact invWith_release hm ht hr hp.2
  | finish x e =>
    simp only [planOk, Bool.and_eq_true, decide_eq_true_eq] at hp
    obtain ⟨⟨-, hy⟩, ho⟩ := hp
    exact invWith_finish hm ht hy ho
  | halted => simp [planOk] at hp

/-! ### The instructions -/

/-- What follows a payload may stand before a script that keeps the rules. -/
theorem planOk_writeTail {cmd : Option Instr} {x : Sess} {after l : List Op} (hw : WriteTail c cmd after)
    (ha : mayAbort cmd x = true) (hp : planOk c cmd x false true l = true) :
    planOk c cmd x false true (after ++ l) = true := by
  rcases hw with rfl | rfl | rfl
  · exact hp
  · simpa [planOk, ha] using hp
  · exact planOk_ramPayload ha rfl hp

/-- The register write of a panel command byte at the head of a script that keeps the rules. -/
theorem invWith_writeReg {b : Byte} {payload : List Byte} {after : List Op} (hm : MemoriesOk c s)
    (ht : TraceOk s.trace) (hr : s.run = true) (hb : b ∈ panelBytes) (ha : mayAbort s.cmd s.sess = true)
    (ho : s.own = true) (hw : WriteTail c s.cmd after)
    (hp : planOk c s.cmd s.sess false true s.script.tail = true) : InvWith c (writeReg c b payload after s) := by
  have hdata : planOk c s.cmd s.sess false true (dataOps payload ++ (after ++ s.script.tail)) = true :=
    planOk_dataOps ha rfl (planOk_writeTail hw ha hp)
  exact invWith_setLine (s := { s with script := .xfer b :: (dataOps payload ++ after ++ s.script.tail) }) hm ht hr ha ho
    (by simpa [planOk, ha, ho, hb] using hdata)

/-- A command executed in a settled state, with the lines as that state requires, keeps the invariant. -/
theorem invWith_command {i : Instr} (hb : ∀ b ∈ c.turnonBooster, b ∈ panelBytes) (hm : MemoriesOk c s)
    (ht : TraceOk s.trace) (hr : s.run = true) (hx : Settled s.sess) (ho : ownFits s.sess s.own = true)
    (h : CommandEffect c s i t) : InvWith c t := by
  obtain ⟨hin, hframe, hpack⟩ := hm
  cases h with
  | ends i e => exact invWith_finish ⟨hin, hframe, hpack⟩ ht hx ho
  | nearest r g b => exact invWith_finish ⟨hin, hframe, hpack⟩ ht hx ho
  | frame hi hw => exact invWith_finish ⟨hin, hw hframe, hpack⟩ ht hx ho
  | packed hw => exact invWith_finish ⟨hin, hframe, hw hpack⟩ ht hx ho
  | unwritten hi => exact invWith_haltCommand ⟨hin, hframe, hpack⟩ ht hr
  | opens hs =>
    have hown : s.own = false := by simpa [hs, ownFits] using ho
    exact invWith_of_planOk ⟨hin, hframe, hpack⟩ ht hr (by simpa [hown] using planOk_openScript)
  | refreshes hi hs =>
    have hown : s.own = true := by simpa [hs, ownFits] using ho
    have ha : mayAbort (some i) .busy = true := by rcases hi with ⟨_, rfl⟩ | ⟨_, rfl⟩ <;> rfl
    exact invWith_of_planOk ⟨hin, hframe, hpack⟩ ht hr (by simpa [hown] using planOk_refreshScript hb ha)
  | closes hs =>
    have hown : s.own = true := by simpa [hs, ownFits] using ho
    exact invWith_of_planOk ⟨hin, hframe, hpack⟩ ht hr (by simpa [hown] using planOk_closeScript)
  | releases hs hown =>
    exact invWith_of_planOk ⟨hin, hframe, hpack⟩ ht hr (by simpa [hown] using planOk_release (by decide))
  | forgets hs hown => exact invWith_finish ⟨hin, hframe, hpack⟩ ht (.inl rfl) (by simp [ownFits, hown])

/-! ### The core's step -/

/-- A running core in order, by what stands at its script's head. -/
theorem sequencerOk_run (h : SequencerOk c s) (hr : s.run = true) :
    (Settled s.sess ∧ ownFits s.sess s.own = true ∧ ∃ w, s.script = [.instr (.cmd w)])
      ∨ planOk c s.cmd s.sess s.dc s.own s.script = true
      ∨ (s.script = [.halted] ∧ s.faults.any = true) := by
  rwa [SequencerOk, if_pos hr] at h

/-- A command word at the script's head is an accepted one (10_state.md R34). -/
theorem settled_of_cmd {w : Word32} {rest : List Op} (h : SequencerOk c s) (hr : s.run = true)
    (hs : s.script = .instr (.cmd w) :: rest) : Settled s.sess ∧ ownFits s.sess s.own = true := by
  obtain ⟨hx, ho, -⟩ | hp | ⟨hh, -⟩ := sequencerOk_run h hr
  · exact ⟨hx, ho⟩
  · simp [hs, planOk] at hp
  · simp [hs] at hh

/-- A panel command byte at the script's head stands where the command may abort, owns the lines, and goes on by the rules. -/
theorem plan_of_panel {b : Byte} {rest : List Op} (h : SequencerOk c s) (hr : s.run = true)
    (hs : s.script = .instr (.panel b) :: rest) :
    b ∈ panelBytes ∧ mayAbort s.cmd s.sess = true ∧ s.own = true
      ∧ planOk c s.cmd s.sess false true rest = true := by
  obtain ⟨-, -, w, hw⟩ | hp | ⟨hh, -⟩ := sequencerOk_run h hr
  · simp [hs] at hw
  · simp only [hs, planOk, Bool.and_eq_true, decide_eq_true_eq] at hp
    obtain ⟨⟨⟨hb, ha⟩, ho⟩, hp⟩ := hp
    exact ⟨hb, ha, ho, ho ▸ hp⟩
  · simp [hs] at hh

/-- The operation at the head of a script in order, if it is no fetch, is one of a script that keeps the rules, or the halt. -/
theorem plan_of_op {op : Op} {rest : List Op} (h : SequencerOk c s) (hr : s.run = true) (hs : s.script = op :: rest)
    (hop : ∀ k, op ≠ .instr k) :
    planOk c s.cmd s.sess s.dc s.own (op :: rest) = true ∨ (op = .halted ∧ rest = []) := by
  obtain ⟨-, -, w, hw⟩ | hp | ⟨hh, -⟩ := sequencerOk_run h hr
  · rw [hs] at hw
    exact absurd (List.cons.inj hw).1 (hop _)
  · exact .inl (hs ▸ hp)
  · rw [hs] at hh
    exact .inr (List.cons.inj hh)

/-- The core's step keeps the invariant. -/
theorem invWith_coreStep (hb : ∀ b ∈ c.turnonBooster, b ∈ panelBytes) (h : InvWith c s)
    (hstep : coreStep c (execWith c) s = .next t) : InvWith c t := by
  obtain ⟨hm, hseq, ht⟩ := h
  obtain ⟨-, he⟩ | ⟨-, -, he⟩ | ⟨k, i, rest, hr, hs, hd, he⟩ | ⟨w, e, rest, hr, hs, -, he⟩ | ⟨b, e, rest, -, -, -, he⟩
    | ⟨op, rest, hr, hs, hop, he⟩ := coreStep_cases c (execWith c) s <;> rw [he] at hstep
  · cases hstep
    exact ⟨hm, hseq, ht⟩
  · cases hstep
    exact ⟨hm, hseq, ht⟩
  · cases k with
    | cmd w =>
      obtain ⟨hx, ho⟩ := settled_of_cmd hseq hr hs
      obtain ⟨w', hw⟩ := encode_of_decodeCommand hd
      exact invWith_command hb hm ht hr hx ho (execWith_command hw hstep)
    | panel b =>
      obtain ⟨hbyte, ha, ho, hp⟩ := plan_of_panel hseq hr hs
      obtain ⟨payload, after, hw, hexec⟩ := execWith_panel c s (encode_of_decodePanel hd)
      rw [hexec] at hstep
      cases hstep
      exact invWith_writeReg hm ht hr hbyte ha ho hw (by simpa [hs] using hp)
  · cases hstep
    obtain ⟨hx, ho⟩ := settled_of_cmd hseq hr hs
    exact invWith_finish hm ht hx ho
  · cases hstep
  · cases hstep
    obtain hp | ⟨rfl, rfl⟩ := plan_of_op hseq hr hs hop
    · exact invWith_microStep (s := { s with script := rest }) hm ht hr hop hp
    · have hsame : microStep c .halted { s with script := [] } = s := by simp [microStep, ← hs]
      rw [hsame]
      exact ⟨hm, hseq, ht⟩

/-! ### The host's turn -/

/-- A legal access outside the register window ends inside the memory of its window. -/
theorem access_in_window {w : Width} {a : BitVec 24} (h : accessOk c w a = true) (hw : windowOf a ≠ .regs) :
    offsetOf a + widthBytes w ≤ windowSize c (windowOf a) := by
  have ha : 0x400000 ≤ a.toNat := by
    by_contra hlt
    exact hw (by simp [windowOf, show a.toNat < 0x400000 by omega])
  exact ((accessOk_mem ha).mp h).2

/-- The memory of a window is in canonical form. -/
theorem wf_windowMem (h : MemoriesOk c s) (x : Window) : Mem.wf (windowMem s x) (windowSize c x) := by
  obtain ⟨hin, hframe, hpack⟩ := h
  cases x with
  | regs => exact wf_nil _
  | inRam => exact hin
  | frameRam => exact hframe
  | packRam => exact hpack

/-- A window's memory may be replaced by one in canonical form. -/
theorem invWith_setWindowMem {x : Window} {m : Mem} (h : InvWith c s) (hw : Mem.wf m (windowSize c x)) :
    InvWith c (setWindowMem x m s) := by
  obtain ⟨⟨hin, hframe, hpack⟩, hseq, ht⟩ := h
  cases x with
  | regs => exact ⟨⟨hin, hframe, hpack⟩, hseq, ht⟩
  | inRam => exact ⟨⟨hw, hframe, hpack⟩, hseq, ht⟩
  | frameRam => exact ⟨⟨hin, hw, hpack⟩, hseq, ht⟩
  | packRam => exact ⟨⟨hin, hframe, hw⟩, hseq, ht⟩

/-- A recorded fault without an effect. -/
theorem invWith_addFault {f : ModelFault} (h : InvWith c s) : InvWith c (addFault f s) := by
  obtain ⟨hm, hseq, ht⟩ := h
  exact ⟨hm, sequencerOk_addFault hseq, ht⟩

/-- A CMD write accepted while RUN = 0. -/
theorem invWith_accept {v : Word32} (h : InvWith c s) (hr : s.run = false) : InvWith c (accept v s) := by
  obtain ⟨hm, hseq, ht⟩ := h
  rw [SequencerOk, if_neg (by simp [hr])] at hseq
  obtain ⟨hx, ho, -, -⟩ := hseq
  refine ⟨hm, ?_, ht⟩
  rw [SequencerOk, if_pos (accept_run v s)]
  exact .inl ⟨hx, ho, v, rfl⟩

/-- A register write starts an accepted command or changes OVR or IN_DIM only. -/
theorem invWith_writeReg32 {off : Nat} {v : Word32} (h : InvWith c s) : InvWith c (writeReg32 off v s) := by
  unfold writeReg32
  split
  · split
    · exact h
    · exact invWith_accept h (by simpa using ‹¬s.run = true›)
  · split
    · split <;> exact h
    · split
      · split <;> exact h
      · exact h

theorem invWith_hostRead {w : Width} {a : BitVec 24} (h : InvWith c s) : InvWith c (hostRead c w a s) := by
  unfold hostRead
  split
  · split
    · exact h
    · split
      · obtain ⟨hm, -, ht⟩ := h
        exact invWith_haltCommand hm ht ‹_›
      · split
        · exact invWith_addFault h
        · exact h
  · exact invWith_addFault h

theorem invWith_hostWrite {w : Width} {a : BitVec 24} {v : Word32} (h : InvWith c s) :
    InvWith c (hostWrite c w a v s) := by
  by_cases hok : accessOk c w a = true
  · by_cases hw : windowOf a = .regs
    · simpa [hostWrite, hok, hw] using invWith_writeReg32 h
    · have ⟨hm, _, ht⟩ := h
      by_cases hr : s.run = true
      · rw [hostWrite_hazard hok hw hr]
        exact invWith_haltCommand hm ht hr
      · rw [hostWrite_mem hok hw (by simpa using hr)]
        exact invWith_setWindowMem h (wf_writeLE _ _ (wf_windowMem hm _) (access_in_window hok hw))
  · rw [hostWrite_wrong (by simpa using hok)]
    exact invWith_addFault h

/-- A core reset only adds `Rel` to the trace, and the reset values are in order. -/
theorem invWith_coreReset (ht : TraceOk s.trace) : InvWith c (coreReset c s) := by
  refine ⟨⟨wf_nil _, wf_nil _, wf_nil _⟩, by simp [SequencerOk, Settled, ownFits], ?_⟩
  rw [coreReset_trace, resetTrace]
  split
  · exact traceOk_cons ht (by simp)
  · exact ht

/-- What the host or the platform does keeps the invariant. -/
theorem invWith_hostTurn {a : HostAct} (hb : ∀ b ∈ c.turnonBooster, b ∈ panelBytes) (h : InvWith c s)
    (hstep : hostTurn c (execWith c) a s = .next t) : InvWith c t := by
  cases a with
  | rd w addr =>
    cases hstep
    exact invWith_hostRead h
  | wr w addr v =>
    cases hstep
    exact invWith_hostWrite h
  | pass => exact invWith_coreStep hb h hstep
  | wait =>
    simp only [hostTurn] at hstep
    split at hstep
    · exact invWith_coreStep (s := { s with hostQ := .wait :: s.hostQ }) hb h hstep
    · cases hstep
      exact h
  | reset =>
    cases hstep
    obtain ⟨-, -, ht⟩ := h
    exact invWith_coreReset ht

/-! ### The machine's step -/

/-- Under any parameters whose booster bytes are panel command bytes, a step keeps the invariant. -/
theorem invWith_stepWith (hb : ∀ b ∈ c.turnonBooster, b ∈ panelBytes) (h : InvWith c s)
    (hstep : stepWith c (execWith c) s = .next t) : InvWith c t := by
  cases hq : s.hostQ with
  | nil =>
    rw [stepWith_alone hq] at hstep
    exact invWith_coreStep hb h hstep
  | cons a q =>
    rw [stepWith_host hq] at hstep
    exact invWith_hostTurn (s := { s with hostQ := q }) hb h hstep

/-- Settles O55: the invariant of any admitted parameters, at this hardware's, whose one booster byte is 0x06. -/
theorem stepKeepsInvariant : Obligations.StepKeepsInvariant := by
  intro s t h hstep
  rw [step_eq_stepWith] at hstep
  exact invWith_stepWith (by simp [Config.epd6, panelBytes]) h hstep

/-- Settles O54: RUN = 0 in CLOSED with the lines released, no byte written and no event recorded. -/
theorem resetMeetsInvariant : Obligations.ResetMeetsInvariant := by
  refine ⟨⟨wf_nil _, wf_nil _, wf_nil _⟩, ?_, fun b a h => absurd h List.not_mem_nil⟩
  simp [SequencerOk, State.reset, State.resetWith, Settled, ownFits]

end Sys2Proof.Machine
end

section
/-! SUPPORT. For the settling of O58 and O59: what no instruction and no step changes. -/

namespace Sys2Proof.Machine

variable {c : Config} {s t : State}

/-! ### The frame of one instruction -/

/-- A `Set` in a script touches its latch, the trace, the draws, and on `err` what an abort touches. -/
theorem setLine_form (c : Config) (l : Line) (v : Bool) (s : State) :
    ∃ u x e r k ops, setLine c l v s =
      { emit (.set l v (c.ack s.draws)) (setLatch l u s) with sess := x, err := e, run := r, cmd := k, script := ops } := by
  obtain ⟨u, hu⟩ := driveLine_form c l v s
  rcases ack_cases (c.ack s.draws) with h | h
  · exact ⟨u, _, _, _, _, _, by rw [setLine, hu, h]; rfl⟩
  · obtain ⟨x, e, r, k, ops, ha⟩ := abort_frame .busError (emit (.set l v .err) (setLatch l u s))
    exact ⟨u, x, e, r, k, ops, by rw [setLine, hu, h, orBusError_err, ha]⟩

/-- A register write's first event touches DC, the trace and the draws, and what an abort touches. -/
theorem writeReg_form (c : Config) (b : Byte) (payload : List Byte) (after : List Op) (s : State) :
    ∃ u x e r k ops, writeReg c b payload after s =
      { s with
        dc := u, trace := .set .dc false (c.ack s.draws) :: s.trace, draws := s.draws + 1
        sess := x, err := e, run := r, cmd := k, script := ops } :=
  setLine_form c .dc false { s with script := .xfer b :: (dataOps payload ++ after ++ s.script.tail) }

/-- Settles O58: a command's effect shows what it changes; a panel command byte's first event changes DC, the trace, the draws and what an abort does. -/
theorem instructionsChangeOnlyTheirState : Obligations.InstructionsChangeOnlyTheirState := by
  intro i s t h
  rw [exec_eq_execWith] at h
  cases hi : encode i with
  | panel b =>
    obtain ⟨payload, after, -, he⟩ := execWith_panel Config.epd6 s hi
    obtain ⟨u, x, e, r, k, ops, hw⟩ := writeReg_form Config.epd6 b payload after s
    rw [he, hw] at h
    cases h
    simp
  | cmd w =>
    cases execWith_command hi h with
    | frame hf => obtain rfl | rfl | rfl := hf <;> simp
    | unwritten hf => obtain (rfl | rfl | rfl) | rfl := hf <;> simp
    | refreshes hf => obtain ⟨_, rfl⟩ | ⟨_, rfl⟩ := hf <;> simp
    | _ => simp

/-! ### What the sequencer never writes -/

/-- The palette ROM is the same, and no fault is taken out of the fault set. -/
structure KeepsRomAndFaults (s t : State) : Prop where
  palette : t.palette = s.palette
  unwrittenRead : s.faults.unwrittenRead = true → t.faults.unwrittenRead = true
  hostAccess : s.faults.hostAccess = true → t.faults.hostAccess = true
  hostHazard : s.faults.hostHazard = true → t.faults.hostHazard = true

/-- IN_RAM and IN_DIM are the same too. -/
structure KeepsInputs (s t : State) : Prop extends KeepsRomAndFaults s t where
  inRam : t.inRam = s.inRam
  inDim : t.inDim = s.inDim

theorem KeepsRomAndFaults.of_eq (hp : t.palette = s.palette) (hf : t.faults = s.faults) : KeepsRomAndFaults s t :=
  ⟨hp, hf ▸ id, hf ▸ id, hf ▸ id⟩

theorem KeepsInputs.of_eq (hp : t.palette = s.palette) (hf : t.faults = s.faults) (hr : t.inRam = s.inRam)
    (hd : t.inDim = s.inDim) : KeepsInputs s t :=
  ⟨.of_eq hp hf, hr, hd⟩

theorem KeepsInputs.refl (s : State) : KeepsInputs s s := .of_eq rfl rfl rfl rfl

theorem KeepsRomAndFaults.trans {u : State} (h : KeepsRomAndFaults s t) (h' : KeepsRomAndFaults t u) :
    KeepsRomAndFaults s u :=
  ⟨h'.palette.trans h.palette, h'.unwrittenRead ∘ h.unwrittenRead, h'.hostAccess ∘ h.hostAccess,
    h'.hostHazard ∘ h.hostHazard⟩

theorem KeepsInputs.trans {u : State} (h : KeepsInputs s t) (h' : KeepsInputs t u) : KeepsInputs s u :=
  ⟨h.toKeepsRomAndFaults.trans h'.toKeepsRomAndFaults, h'.inRam.trans h.inRam, h'.inDim.trans h.inDim⟩

/-- An abort keeps what stood before it. -/
theorem KeepsInputs.abort {e : Err} (h : KeepsInputs s t) : KeepsInputs s (abort e t) := by
  obtain ⟨_, _, _, _, _, ha⟩ := abort_frame e t
  exact h.trans (ha ▸ .of_eq rfl rfl rfl rfl)

theorem keepsInputs_addFault (f : ModelFault) (s : State) : KeepsInputs s (addFault f s) := by
  obtain ⟨hu, ha, hh⟩ := record_mono f s.faults
  exact ⟨⟨rfl, hu, ha, hh⟩, rfl, rfl⟩

theorem keepsInputs_haltCommand (f : ModelFault) (s : State) : KeepsInputs s (haltCommand f s) := by
  obtain ⟨hu, ha, hh⟩ := record_mono f s.faults
  exact ⟨⟨rfl, hu, ha, hh⟩, rfl, rfl⟩

theorem keepsInputs_driveLine (c : Config) (l : Line) (v : Bool) (s : State) : KeepsInputs s (driveLine c l v s) := by
  obtain ⟨u, h⟩ := driveLine_form c l v s
  rw [h]
  exact .of_eq (by simp) (by simp) (by simp) (by simp)

theorem keepsInputs_setLine (c : Config) (l : Line) (v : Bool) (s : State) : KeepsInputs s (setLine c l v s) := by
  obtain ⟨u, x, e, r, k, ops, h⟩ := setLine_form c l v s
  rw [h]
  exact .of_eq (by simp) (by simp) (by simp) (by simp)

theorem keepsInputs_transfer (c : Config) (b : Byte) (s : State) : KeepsInputs s (transfer c b s) := by
  rcases ack_cases (c.ack s.draws) with h | h
  · rw [transfer_ok h]
    exact .of_eq rfl rfl rfl rfl
  · rw [transfer_err h]
    exact .abort (.of_eq rfl rfl rfl rfl)

theorem keepsInputs_acquire (c : Config) (s : State) : KeepsInputs s (acquire c s) := by
  rcases ack_cases (c.ack s.draws) with h | h
  · rw [acquire_ok h]
    exact .of_eq rfl rfl rfl rfl
  · rw [acquire_err h]
    exact .abort (.of_eq rfl rfl rfl rfl)

theorem keepsInputs_pollBusy (c : Config) (k : Nat) (s : State) : KeepsInputs s (pollBusy c k s) := by
  unfold pollBusy
  split
  · exact .abort (.of_eq rfl rfl rfl rfl)
  · split
    · exact .of_eq rfl rfl rfl rfl
    · split
      · exact .abort (.of_eq rfl rfl rfl rfl)
      · exact .of_eq rfl rfl rfl rfl

theorem keepsInputs_sendData (c : Config) (b : Byte) (after : List Op) (s : State) :
    KeepsInputs s (sendData c b after s) :=
  .trans (t := { s with script := .xfer b :: (after ++ s.script) }) (.of_eq rfl rfl rfl rfl)
    (keepsInputs_setLine c .dc true _)

/-- No operation of a script writes the ROM, IN_RAM or IN_DIM or clears a fault. -/
theorem keepsInputs_microStep (c : Config) (op : Op) (s : State) : KeepsInputs s (microStep c op s) := by
  cases op with
  | acq => exact keepsInputs_acquire c s
  | set l v => exact keepsInputs_setLine c l v s
  | xfer b => exact keepsInputs_transfer c b s
  | busyWait k => exact keepsInputs_pollBusy c k s
  | relSet l => exact keepsInputs_driveLine c l false s
  | fill b n =>
    cases n with
    | zero => exact .refl s
    | succ n => exact keepsInputs_sendData c b _ s
  | stream k n =>
    cases n with
    | zero => exact .refl s
    | succ n =>
      simp only [microStep]
      split
      · exact keepsInputs_haltCommand _ s
      · exact keepsInputs_sendData c _ _ s
  | _ => exact .of_eq rfl rfl rfl rfl

/-- No instruction does. -/
theorem keepsInputs_execWith {i : Instr} (h : execWith c i s = .next t) : KeepsInputs s t := by
  cases hi : encode i with
  | panel b =>
    obtain ⟨payload, after, -, he⟩ := execWith_panel c s hi
    obtain ⟨u, x, e, r, k, ops, hw⟩ := writeReg_form c b payload after s
    rw [he, hw] at h
    cases h
    exact .of_eq rfl rfl rfl rfl
  | cmd w =>
    cases execWith_command hi h with
    | unwritten _ => exact keepsInputs_haltCommand _ s
    | _ => exact .of_eq rfl rfl rfl rfl

theorem keepsInputs_coreStep (h : coreStep c (execWith c) s = .next t) : KeepsInputs s t := by
  obtain ⟨-, he⟩ | ⟨-, -, he⟩ | ⟨k, i, rest, -, -, -, he⟩ | ⟨w, e, rest, -, -, -, he⟩ | ⟨b, e, rest, -, -, -, he⟩
    | ⟨op, rest, -, -, -, he⟩ := coreStep_cases c (execWith c) s <;> rw [he] at h
  · cases h
    exact .refl s
  · cases h
    exact .refl s
  · exact keepsInputs_execWith h
  · cases h
    exact .of_eq rfl rfl rfl rfl
  · cases h
  · cases h
    exact .trans (t := { s with script := rest }) (.of_eq rfl rfl rfl rfl) (keepsInputs_microStep c op _)

/-! ### What the host never writes -/

theorem keepsInputs_hostRead (c : Config) (w : Width) (a : BitVec 24) (s : State) :
    KeepsInputs s (hostRead c w a s) := by
  unfold hostRead
  split
  · split
    · exact .of_eq rfl rfl rfl rfl
    · split
      · exact keepsInputs_haltCommand _ s
      · split
        · exact keepsInputs_addFault _ s
        · exact .of_eq rfl rfl rfl rfl
  · exact keepsInputs_addFault _ s

theorem keepsRomAndFaults_writeReg32 (off : Nat) (v : Word32) (s : State) :
    KeepsRomAndFaults s (writeReg32 off v s) := by
  unfold writeReg32
  split_ifs <;> exact .of_eq rfl rfl

theorem keepsRomAndFaults_setWindowMem (x : Window) (m : Mem) (s : State) :
    KeepsRomAndFaults s (setWindowMem x m s) := by
  cases x <;> exact .of_eq rfl rfl

theorem keepsRomAndFaults_hostWrite (c : Config) (w : Width) (a : BitVec 24) (v : Word32) (s : State) :
    KeepsRomAndFaults s (hostWrite c w a v s) := by
  unfold hostWrite
  split
  · split
    · exact keepsRomAndFaults_writeReg32 _ v s
    · split
      · exact (keepsInputs_haltCommand _ s).toKeepsRomAndFaults
      · exact keepsRomAndFaults_setWindowMem _ _ s
  · exact (keepsInputs_addFault _ s).toKeepsRomAndFaults

/-- The host's turn keeps the inputs, unless it is a write or a reset, which keep the ROM and the faults. -/
theorem keeps_hostTurn {a : HostAct} (h : hostTurn c (execWith c) a s = .next t) :
    KeepsInputs s t ∨ (KeepsRomAndFaults s t ∧ ((∃ w addr v, a = .wr w addr v) ∨ a = .reset)) := by
  cases a with
  | rd w addr =>
    cases h
    exact .inl (keepsInputs_hostRead c w addr s)
  | wr w addr v =>
    cases h
    exact .inr ⟨keepsRomAndFaults_hostWrite c w addr v s, .inl ⟨w, addr, v, rfl⟩⟩
  | pass => exact .inl (keepsInputs_coreStep h)
  | wait =>
    simp only [hostTurn] at h
    split at h
    · exact .inl (.trans (t := { s with hostQ := .wait :: s.hostQ }) (.of_eq rfl rfl rfl rfl) (keepsInputs_coreStep h))
    · cases h
      exact .inl (.refl s)
  | reset =>
    cases h
    exact .inr ⟨.of_eq rfl rfl, .inr rfl⟩

/-- A step keeps the inputs, unless the host's next action is a write or a reset. -/
theorem keeps_stepWith (h : stepWith c (execWith c) s = .next t) :
    KeepsInputs s t
      ∨ (KeepsRomAndFaults s t ∧ ((∃ w a v q, s.hostQ = .wr w a v :: q) ∨ ∃ q, s.hostQ = .reset :: q)) := by
  cases hq : s.hostQ with
  | nil =>
    rw [stepWith_alone hq] at h
    exact .inl (keepsInputs_coreStep h)
  | cons a q =>
    rw [stepWith_host hq] at h
    obtain hk | ⟨hk, hact⟩ := keeps_hostTurn h
    · exact .inl (.trans (t := { s with hostQ := q }) (.of_eq rfl rfl rfl rfl) hk)
    · refine .inr ⟨.trans (t := { s with hostQ := q }) (.of_eq rfl rfl) hk, ?_⟩
      obtain ⟨w, addr, v, rfl⟩ | rfl := hact
      · exact .inl ⟨w, addr, v, q, rfl⟩
      · exact .inr ⟨q, rfl⟩

/-- Settles O59: a step keeps the ROM and the faults, and the inputs too unless the host writes or the platform resets. -/
theorem romFaultsAndInputsKeep : Obligations.RomFaultsAndInputsKeep := by
  intro s t h
  rw [step_eq_stepWith] at h
  obtain ⟨⟨hp, hu, ha, hh⟩, hr, hd⟩ | ⟨⟨hp, hu, ha, hh⟩, hact⟩ := keeps_stepWith h
  · exact ⟨hp, hu, ha, hh, fun hne => absurd hne (by simp [hr, hd])⟩
  · exact ⟨hp, hu, ha, hh, fun _ => hact⟩

end Sys2Proof.Machine
end

section
/-! SUPPORT. For the settling of O5, O7, O10, O11 and O60: the turn of the sequencer, the register window, and a core reset. -/

namespace Sys2Proof.Machine

/-! ### The sequencer's turn -/

/-- Settles O5: with no action pending, at `pass` and at `WAIT` the core moves, and it fetches at its script's head. -/
theorem stepRunsDecodedInstruction : Obligations.StepRunsDecodedInstruction := by
  intro s k i rest hr hs hd
  refine ⟨fun hq => ?_, fun q hq => ?_, fun q hq => ?_⟩
  · rw [step, stepWith_alone hq, coreStep_instr hr hs hd]
  · rw [step, stepWith_host hq]
    exact coreStep_instr (s := { s with hostQ := q }) hr hs hd
  · rw [step, stepWith_host hq, hostTurn, if_pos hr, ← hq]
    exact coreStep_instr hr hs hd

/-! ### The register window -/

/-- A 32-bit aligned address of the register window is a legal access, and its offset is itself. -/
theorem registerAccess {c : Config} {a : BitVec 24} (h : a.toNat < 0x400000) (h4 : a.toNat % 4 = 0) :
    accessOk c .w32 a = true ∧ windowOf a = .regs ∧ offsetOf a = a.toNat :=
  ⟨(accessOk_regs h).mpr ⟨h4, rfl⟩, by rw [windowOf, if_pos h], Nat.mod_eq_of_lt h⟩

/-- A step at an aligned 32-bit write of the register window. -/
theorem step_registerWrite {s : State} {a : BitVec 24} {v : Word32} {q : List HostAct}
    (hq : s.hostQ = .wr .w32 a v :: q) (h : a.toNat < 0x400000) (h4 : a.toNat % 4 = 0) :
    step s = .next (writeReg32 a.toNat v { s with hostQ := q }) := by
  obtain ⟨hok, hw, ho⟩ := registerAccess (c := Config.epd6) h h4
  rw [step, stepWith_host hq]
  simp [hostTurn, hostWrite, hok, hw, ho]

/-- A step at an aligned 32-bit read of the register window. -/
theorem step_registerRead {s : State} {a : BitVec 24} {q : List HostAct}
    (hq : s.hostQ = .rd .w32 a :: q) (h : a.toNat < 0x400000) (h4 : a.toNat % 4 = 0) :
    step s = .next (answer (readReg Config.epd6 { s with hostQ := q } a.toNat) { s with hostQ := q }) := by
  obtain ⟨hok, hw, ho⟩ := registerAccess (c := Config.epd6) h h4
  rw [step, stepWith_host hq]
  simp [hostTurn, hostRead, hok, hw, ho]

theorem writeReg32_cmd {v : Word32} {s : State} (hr : s.run = false) : writeReg32 0x000 v s = accept v s := by
  simp [writeReg32, hr]

theorem writeReg32_status (v : Word32) (s : State) :
    writeReg32 0x004 v s = { s with ovr := s.ovr && !v.getLsbD 8 } := by
  unfold writeReg32
  cases h : v.getLsbD 8
  · rw [Bool.not_false, Bool.and_true]
    rfl
  · rw [Bool.not_true, Bool.and_false]
    rfl

theorem writeReg32_inDim {v : Word32} {s : State} (hr : s.run = false) :
    writeReg32 0x00C v s = { s with inDim := v } := by
  simp [writeReg32, hr]

/-- A read-only or reserved offset ignores a write (10_state.md R28). -/
theorem writeReg32_ignored {off : Nat} (v : Word32) (s : State) (h0 : off ≠ 0x000) (h4 : off ≠ 0x004)
    (hC : off ≠ 0x00C) : writeReg32 off v s = s := by
  simp [writeReg32, h0, h4, hC]

/-- OPC is the top byte of the word (30_encoding.md R90). -/
theorem opcOf_eq_ofNat (w : Word32) : opcOf w = BitVec.ofNat 8 (w.toNat / 2 ^ 24) := by
  apply BitVec.eq_of_toNat_eq
  rw [opcOf, BitVec.extractLsb'_toNat, Nat.shiftRight_eq_div_pow, BitVec.toNat_ofNat]

/-- Settles O7: the write is accepted. -/
theorem cmdWriteStartsCommand : Obligations.CmdWriteStartsCommand := by
  intro s v q hr hq
  rw [step_registerWrite hq (by decide) (by decide)]
  simp [writeReg32_cmd, hr, accept, opcOf_eq_ofNat]

/-- Bit 8 of a word. -/
theorem getLsbD_eight (v : Word32) : v.getLsbD 8 = (v.toNat / 256 % 2 == 1) := by
  rw [BitVec.getLsbD, Nat.testBit_eq_decide_div_mod_eq, beq_eq_decide]

/-- Settles O10, register by register. -/
theorem registerWritesActAsListed : Obligations.RegisterWritesActAsListed := by
  intro s a v q hq
  refine ⟨?_, ?_, ?_, fun hlo hhi h4 => ?_⟩
  · rintro rfl
    rw [step_registerWrite hq (by decide) (by decide), ← getLsbD_eight]
    exact congrArg _ (writeReg32_status v _)
  · rintro rfl hr
    rw [step_registerWrite hq (by decide) (by decide)]
    exact congrArg _ (writeReg32_inDim hr)
  · rintro (rfl | rfl | rfl) <;> rw [step_registerWrite hq (by decide) (by decide)] <;>
      exact congrArg _ (writeReg32_ignored v _ (by decide) (by decide) (by decide))
  · rw [step_registerWrite hq hhi h4, writeReg32_ignored v _ (by omega) (by omega) (by omega)]

/-! ### Register words as numbers -/

/-- Two words side by side, the low one of `n` bits. -/
theorem toNat_append_add {m n : Nat} (x : BitVec m) (y : BitVec n) : (x ++ y).toNat = x.toNat * 2 ^ n + y.toNat := by
  rw [BitVec.toNat_append, ← Nat.shiftLeft_add_eq_or_of_lt y.isLt, Nat.shiftLeft_eq]

/-- STATUS as the sum of its fields (10_state.md R23). -/
theorem statusWord_toNat (s : State) :
    (statusWord s).toNat = s.lastOp.toNat * 65536 + s.ovr.toNat * 256 + (errCode s.err).toNat * 16
      + (sessCode s.sess).toNat * 2 + s.run.toNat := by
  simp only [statusWord, bit, toNat_append_add, BitVec.toNat_ofBool, BitVec.ofNat_eq_ofNat, BitVec.toNat_zero]
  ring

/-- LINES as the sum of its fields (R26). -/
theorem linesWord_toNat (s : State) :
    (linesWord s).toNat =
      s.own.toNat * 16 + s.busyRaw.toNat * 8 + s.pwr.toNat * 4 + s.dc.toNat * 2 + s.rst.toNat := by
  simp only [linesWord, bit, toNat_append_add, BitVec.toNat_ofBool, BitVec.ofNat_eq_ofNat, BitVec.toNat_zero]
  ring

/-- CMD and the reserved offsets read 0 (10_state.md R22, R28). -/
theorem readReg_reserved {a : BitVec 24} (c : Config) (s : State) (h : a ∉ [0x004, 0x008, 0x00C, 0x010, 0x014]) :
    readReg c s a.toNat = 0 := by
  simp only [List.mem_cons, List.not_mem_nil, or_false, not_or, ← BitVec.toNat_inj] at h
  obtain ⟨hstatus, hresult, hdim, hlines, hid⟩ := h
  exact (if_neg hstatus).trans <| (if_neg hresult).trans <| (if_neg hdim).trans <| (if_neg hlines).trans (if_neg hid)

/-- Settles O11: each register's word, and both code tables. -/
theorem registerReadsReturnTheirWords : Obligations.RegisterReadsReturnTheirWords := by
  refine ⟨fun s a q hq h h4 => ⟨_, step_registerRead hq h h4, ?_, ?_, ?_, ?_, ?_, ?_⟩, by decide, by decide⟩
  · rintro rfl
    exact statusWord_toNat _
  · rintro rfl
    rfl
  · rintro rfl
    rfl
  · rintro rfl
    exact linesWord_toNat _
  · rintro rfl
    rfl
  · exact readReg_reserved _ _

/-! ### A core reset -/

/-- Settles O60: the fields of `coreReset` and of `State.reset`. -/
theorem coreResetLeavesResetValues : Obligations.CoreResetLeavesResetValues := by
  refine ⟨fun s q hq => ⟨coreReset Config.epd6 { s with hostQ := q }, ?_, rfl⟩, rfl⟩
  rw [step, stepWith_host hq]
  rfl

end Sys2Proof.Machine
end

section
/-! SUPPORT. For the settling of O12 to O15: a step at a host access, legal or not, with the address map in numbers. -/

namespace Sys2Proof.Machine

variable {base size n o : Nat} {mem : State → Mem} {w : Width} {a : BitVec 24} {v : Word32} {s : State} {q : List HostAct}

/-! ### The memory of a window -/

@[simp] theorem setWindowMem_run (x : Window) (m : Mem) (s : State) : (setWindowMem x m s).run = s.run := by
  cases x <;> rfl

/-- A window's memory does not depend on the host's queue. -/
theorem windowMem_hostQ (s : State) (q : List HostAct) (x : Window) :
    windowMem { s with hostQ := q } x = windowMem s x := by
  cases x <;> rfl

/-- Replacing a memory does not depend on the host's queue. -/
theorem setWindowMem_hostQ (x : Window) (m : Mem) (s : State) (q : List HostAct) :
    setWindowMem x m { s with hostQ := q } = { setWindowMem x m s with hostQ := q } := by
  cases x <;> rfl

/-- Replacing a memory changes a memory only. -/
theorem setWindowMem_frame (x : Window) (m : Mem) (s : State) :
    setWindowMem x m s = { s with
      inRam := (setWindowMem x m s).inRam, frameRam := (setWindowMem x m s).frameRam
      packRam := (setWindowMem x m s).packRam } := by
  cases x <;> rfl

/-- Replacing the memory of one window leaves the memory of every other window. -/
theorem hostWindow_setWindowMem_other {base' size' : Nat} {mem' : State → Mem} (h : HostWindow base size mem)
    (h1 : base ≤ a.toNat) (h2 : a.toNat < base + 0x400000) (h' : HostWindow base' size' mem') (hne : base' ≠ base)
    (m : Mem) (s : State) : mem' (setWindowMem (windowOf a) m s) = mem' s := by
  obtain ⟨rfl, -, -⟩ | ⟨rfl, -, -⟩ | ⟨rfl, -, -⟩ := h
  · rw [windowOf_inRam h1 (by omega)]
    obtain ⟨rfl, -, -⟩ | ⟨-, -, rfl⟩ | ⟨-, -, rfl⟩ := h'
    exacts [absurd rfl hne, rfl, rfl]
  · rw [windowOf_frameRam h1 (by omega)]
    obtain ⟨-, -, rfl⟩ | ⟨rfl, -, -⟩ | ⟨-, -, rfl⟩ := h'
    exacts [rfl, absurd rfl hne, rfl]
  · rw [windowOf_packRam h1]
    obtain ⟨-, -, rfl⟩ | ⟨-, -, rfl⟩ | ⟨rfl, -, -⟩ := h'
    exacts [rfl, rfl, absurd rfl hne]

/-! ### Which accesses are legal (20_memory.md R64, R65, R69) -/

theorem accessOk_of_misaligned {c : Config} (h : a.toNat % widthBytes w ≠ 0) : accessOk c w a = false := by
  simp [accessOk, aligned, h]

/-- An aligned access to a memory window is legal when it ends inside the memory. -/
theorem accessOk_hostWindow (h : HostWindow base size mem) (hn : HostWidth w n) (h1 : base ≤ a.toNat)
    (h2 : a.toNat < base + 0x400000) (h0 : a.toNat % n = 0) :
    accessOk Config.epd6 w a = true ↔ a.toNat - base + n ≤ size := by
  obtain ⟨-, hsize, hoff, -, hlo⟩ := hostWindow_address h h1 h2
  rw [accessOk_mem hlo, hsize, hoff, widthBytes_of_hostWidth hn]
  exact and_iff_right h0

/-- An aligned offset that leaves room for the access is an aligned address of the window. -/
theorem hostWindow_offset (h : HostWindow base size mem) (hn : HostWidth w n) (ha : a.toNat = base + o) (h0 : o % n = 0)
    (ho : o + n ≤ size) : base ≤ a.toNat ∧ a.toNat < base + 0x400000 ∧ a.toNat % n = 0 := by
  have hsize : size < 0x400000 := by omega
  have hbase : base % n = 0 := by
    obtain ⟨-, rfl⟩ | ⟨-, rfl⟩ | ⟨-, rfl⟩ := hn <;> omega
  refine ⟨by omega, by omega, ?_⟩
  rw [ha, Nat.add_mod, hbase, h0, Nat.zero_mod]

/-! ### A step at a host access -/

theorem step_hostRead (hq : s.hostQ = .rd w a :: q) :
    step s = .next (hostRead Config.epd6 w a { s with hostQ := q }) := by
  rw [step, stepWith_host hq, hostTurn]

theorem step_hostWrite (hq : s.hostQ = .wr w a v :: q) :
    step s = .next (hostWrite Config.epd6 w a v { s with hostQ := q }) := by
  rw [step, stepWith_host hq, hostTurn]

/-- An access that is not legal records HostAccess and does nothing else (20_memory.md R65, R69). -/
theorem step_wrongAccess (hok : accessOk Config.epd6 w a = false)
    (hq : s.hostQ = .rd w a :: q ∨ s.hostQ = .wr w a v :: q) :
    step s = .next { s with faults := { s.faults with hostAccess := true }, hostQ := q } := by
  obtain hq | hq := hq
  · rw [step_hostRead hq, hostRead_wrong hok]
    rfl
  · rw [step_hostWrite hq, hostWrite_wrong hok]
    rfl

/-- A legal access to a memory while RUN = 1 records HostHazard and halts the command (R78). -/
theorem step_hazardAccess (hok : accessOk Config.epd6 w a = true) (hw : windowOf a ≠ .regs) (hr : s.run = true)
    (hq : s.hostQ = .rd w a :: q ∨ s.hostQ = .wr w a v :: q) :
    step s = .next { s with faults := { s.faults with hostHazard := true }, script := [.halted], hostQ := q } := by
  obtain hq | hq := hq
  · rw [step_hostRead hq, hostRead_hazard (s := { s with hostQ := q }) hok hw hr]
    rfl
  · rw [step_hostWrite hq, hostWrite_hazard (s := { s with hostQ := q }) hok hw hr]
    rfl

/-- A legal write to a memory with RUN = 0 puts its bytes into the memory of its window (R62, R64). -/
theorem step_memoryWrite (hok : accessOk Config.epd6 w a = true) (hw : windowOf a ≠ .regs) (hr : s.run = false)
    (hq : s.hostQ = .wr w a v :: q) :
    step s = .next { setWindowMem (windowOf a)
      (writeLE (windowMem s (windowOf a)) (offsetOf a) v.toNat (widthBytes w)) s with hostQ := q } := by
  rw [step_hostWrite hq, hostWrite_mem (s := { s with hostQ := q }) hok hw hr, setWindowMem_hostQ, windowMem_hostQ]

/-- A legal read of written bytes of a memory with RUN = 0 returns them as a number (R62, R64). -/
theorem step_memoryRead {k : Nat} (hok : accessOk Config.epd6 w a = true) (hw : windowOf a ≠ .regs) (hr : s.run = false)
    (hk : readLE (windowMem s (windowOf a)) (offsetOf a) (widthBytes w) = some k) (hq : s.hostQ = .rd w a :: q) :
    step s = .next { s with reads := BitVec.ofNat 32 k :: s.reads, hostQ := q } := by
  rw [← windowMem_hostQ s q] at hk
  rw [step_hostRead hq, hostRead_mem (s := { s with hostQ := q }) hok hw hr hk]
  rfl

/-- A legal read of a memory with RUN = 0 that meets a byte never written records UnwrittenRead (10_state.md R31). -/
theorem step_unwrittenRead (hok : accessOk Config.epd6 w a = true) (hw : windowOf a ≠ .regs) (hr : s.run = false)
    (hk : readLE (windowMem s (windowOf a)) (offsetOf a) (widthBytes w) = none) (hq : s.hostQ = .rd w a :: q) :
    step s = .next { s with faults := { s.faults with unwrittenRead := true }, hostQ := q } := by
  rw [← windowMem_hostQ s q] at hk
  rw [step_hostRead hq, hostRead_unwritten (s := { s with hostQ := q }) hok hw hr hk]
  rfl

/-! ### The statements -/

/-- Settles O12: the write is `writeLE` in the memory of its window, whose three clauses are the three kinds of byte. -/
theorem hostMemoryWriteStoresItsBytes : Obligations.HostMemoryWriteStoresItsBytes := by
  intro s base size mem w n o a v q h hn ha h0 ho hq hr
  obtain ⟨h1, h2, h0'⟩ := hostWindow_offset h hn ha h0 ho
  obtain ⟨hw, -, hoff, hmem, -⟩ := hostWindow_address h h1 h2
  have hok := (accessOk_hostWindow h hn h1 h2 h0').mpr (by omega)
  have hstored : mem (setWindowMem (windowOf a) (writeLE (mem s) o v.toNat n) s) = writeLE (mem s) o v.toNat n := by
    rw [← hmem, windowMem_setWindowMem hw]
  refine ⟨_, step_memoryWrite hok hw hr hq, ?_⟩
  rw [hmem, widthBytes_of_hostWidth hn, show offsetOf a = o by omega, hostWindow_hostQ h, hstored]
  refine ⟨fun j hj => readByte_writeLE_inside _ _ _ hj, fun b hb => ?_, fun base' size' mem' h' hne => ?_, ?_⟩
  · obtain hb | hb := hb
    · exact readByte_writeLE_below _ _ _ hb
    · exact readByte_writeLE_above _ _ _ hb
  · rw [hostWindow_hostQ h', hostWindow_setWindowMem_other h h1 h2 h' hne]
  · exact congrArg (fun t : State => { t with hostQ := q }) (setWindowMem_frame _ _ s)

/-- Settles O13: `readLE` undoes `writeLE`, the write leaving RUN = 0. -/
theorem hostReadAfterWriteReturnsValue : Obligations.HostReadAfterWriteReturnsValue := by
  intro s base size mem w n o a v q h hn ha h0 ho hq hr
  obtain ⟨h1, h2, h0'⟩ := hostWindow_offset h hn ha h0 ho
  obtain ⟨hw, -, -, -, -⟩ := hostWindow_address h h1 h2
  have hok := (accessOk_hostWindow h hn h1 h2 h0').mpr (by omega)
  refine ⟨_, (runSteps_next (step_memoryWrite hok hw hr hq)).trans (runSteps_next
    (step_memoryRead (k := v.toNat % 256 ^ n) hok hw ((setWindowMem_run _ _ s).trans hr) ?_ rfl)), ?_, ?_⟩
  · rw [windowMem_hostQ, windowMem_setWindowMem hw, readLE_writeLE, widthBytes_of_hostWidth hn]
  all_goals rw [setWindowMem_frame]

/-- Settles O14: neither access is legal. -/
theorem misalignedOrNarrowRegisterAccessFaults : Obligations.MisalignedOrNarrowRegisterAccessFaults := by
  intro s w n a v q hn hbad hq
  refine step_wrongAccess ?_ hq
  obtain hmis | ⟨hlo, hnarrow⟩ := hbad
  · exact accessOk_of_misaligned (widthBytes_of_hostWidth hn ▸ hmis)
  · rw [Bool.eq_false_iff, Ne, accessOk_regs hlo]
    rintro ⟨-, rfl⟩
    exact hnarrow (widthBytes_of_hostWidth hn).symm

/-- Settles O15: past the memory's end the access is not legal; inside it RUN and the written-flags decide. -/
theorem memoryAccessFaults : Obligations.MemoryAccessFaults := by
  intro s base size mem w n a v q h hn h1 h2 h0
  obtain ⟨hw, -, hoff, hmem, -⟩ := hostWindow_address h h1 h2
  have hok := accessOk_hostWindow h hn h1 h2 h0
  refine ⟨fun hpast => ?_, fun hin hr => ?_, fun hin hr hunwritten => ?_⟩
  · exact step_wrongAccess (Bool.eq_false_iff.mpr fun hlegal => by have := hok.mp hlegal; omega)
  · exact step_hazardAccess (hok.mpr hin) hw hr
  · refine step_unwrittenRead (hok.mpr hin) hw hr ?_
    rw [hmem, hoff, widthBytes_of_hostWidth hn]
    exact readLE_eq_none.mpr hunwritten

end Sys2Proof.Machine
end

section
/-! SUPPORT. For the settling of O1, O2, O3, O4 and O6: the fields of a command word, and the decoder's answer for each operation code. -/

namespace Sys2Proof.Machine

/-! ### The fields of a word -/

/-- A field of a word is a quotient of the word, cut to the field's width. -/
theorem extractLsb'_eq_ofNat {n : Nat} (start len : Nat) (w : BitVec n) :
    w.extractLsb' start len = BitVec.ofNat len (w.toNat / 2 ^ start) :=
  congrArg (BitVec.ofNat len) (Nat.shiftRight_eq_div_pow _ _)

theorem toNat_opcOf (w : Word32) : (opcOf w).toNat = w.toNat / 2 ^ 24 := by
  rw [opcOf_eq_ofNat, BitVec.toNat_ofNat]
  omega

theorem operandOf_eq_zero {w : Word32} : operandOf w = 0 ↔ w.toNat % 2 ^ 24 = 0 := by
  rw [operandOf, BitVec.toNat_eq, BitVec.extractLsb'_toNat, Nat.shiftRight_zero]
  rfl

/-- The reserved bits of CLEAR, 23:4 (30_encoding.md R93). -/
theorem clearReserved_eq_zero {w : Word32} : w.extractLsb' 4 20 = 0 ↔ w.toNat % 2 ^ 24 / 16 = 0 := by
  rw [BitVec.toNat_eq, BitVec.extractLsb'_toNat, Nat.shiftRight_eq_div_pow]
  change w.toNat / 16 % 2 ^ 20 = 0 ↔ _
  omega

@[simp] theorem opcOf_append (opc : Byte) (operand : BitVec 24) : opcOf (opc ++ operand) = opc :=
  BitVec.extractLsb'_append_eq_left

@[simp] theorem operandOf_append (opc : Byte) (operand : BitVec 24) : operandOf (opc ++ operand) = operand :=
  BitVec.extractLsb'_append_eq_right

/-- A word is its OPC before its OPERAND (30_encoding.md R90). -/
theorem opcOf_append_operandOf (w : Word32) : opcOf w ++ operandOf w = w :=
  BitVec.extractLsb'_append_extractLsb' (w := 8) (len := 24)

/-! ### The decoder's answer for each operation code (30_encoding.md R103) -/

/-- The operations without operand, each with its OPC (30_encoding.md R91). -/
def bareCommands : List (Nat × Instr) :=
  [(0x02, .orient), (0x03, .ditherFs), (0x04, .ditherAtk), (0x05, .pack), (0x10, .openSession), (0x13, .closeSession)]

/-- The operation codes of 30_encoding.md R91. -/
def commandOpcs : List Byte := [0x01, 0x02, 0x03, 0x04, 0x05, 0x10, 0x11, 0x12, 0x13]

theorem decodeCommand_nearest {w : Word32} (h : opcOf w = 0x01) :
    decodeCommand w = .ok (.nearest (w.extractLsb' 16 8) (w.extractLsb' 8 8) (w.extractLsb' 0 8)) := by
  simp [decodeCommand, h]

theorem decodeCommand_bare {w : Word32} {p : Nat × Instr} (hp : p ∈ bareCommands)
    (h : opcOf w = BitVec.ofNat 8 p.1) : decodeCommand w = decodeBare w p.2 := by
  simp only [bareCommands, List.mem_cons, List.not_mem_nil, or_false] at hp
  rcases hp with rfl | rfl | rfl | rfl | rfl | rfl <;> simp [decodeCommand, h]

theorem decodeCommand_clear {w : Word32} (h : opcOf w = 0x11) : decodeCommand w = decodeClear w := by
  simp [decodeCommand, h]

theorem decodeCommand_display {w : Word32} (h : opcOf w = 0x12) : decodeCommand w = .ok (.display (operandOf w)) := by
  simp [decodeCommand, h]

theorem decodeCommand_unlisted {w : Word32} (h : opcOf w ∉ commandOpcs) :
    decodeCommand w = .error (.illegalOpcode (opcOf w)) := by
  simp only [commandOpcs, List.mem_cons, List.not_mem_nil, or_false, not_or] at h
  simp only [decodeCommand, h, if_false]

/-- Every OPC is NEAREST's, a bare command's, CLEAR's, DISPLAY's or unlisted. -/
theorem opcOf_cases (w : Word32) :
    opcOf w = 0x01 ∨ (∃ p ∈ bareCommands, opcOf w = BitVec.ofNat 8 p.1) ∨ opcOf w = 0x11 ∨ opcOf w = 0x12
      ∨ opcOf w ∉ commandOpcs := by
  simp only [bareCommands, commandOpcs, List.mem_cons, List.not_mem_nil, or_false, exists_eq_or_imp, exists_eq_left]
  tauto

theorem decodeBare_ok {w : Word32} {i j : Instr} : decodeBare w i = .ok j ↔ operandOf w = 0 ∧ i = j := by
  simp only [decodeBare, ite_eq_iff, Except.ok.injEq, reduceCtorEq, and_false, or_false]

theorem decodeClear_ok {w : Word32} {i : Instr} :
    decodeClear w = .ok i ↔ w.extractLsb' 4 20 = 0 ∧ .clear (w.extractLsb' 0 4) = i := by
  simp only [decodeClear, ite_eq_iff, Except.ok.injEq, reduceCtorEq, and_false, or_false]

/-! ### The encoder undoes the decoder, and the decoder the encoder -/

theorem encode_bare {p : Nat × Instr} (hp : p ∈ bareCommands) : encode p.2 = encodeBare (BitVec.ofNat 8 p.1) := by
  simp only [bareCommands, List.mem_cons, List.not_mem_nil, or_false] at hp
  rcases hp with rfl | rfl | rfl | rfl | rfl | rfl <;> rfl

/-- A word as the fields of NEAREST: OPC, R, G and B (30_encoding.md R92). -/
theorem opcOf_append_bytes (w : Word32) :
    opcOf w ++ w.extractLsb' 16 8 ++ w.extractLsb' 8 8 ++ w.extractLsb' 0 8 = w := by
  rw [opcOf, BitVec.extractLsb'_append_extractLsb'_eq_extractLsb', BitVec.extractLsb'_append_extractLsb'_eq_extractLsb',
    BitVec.extractLsb'_append_extractLsb'_eq_extractLsb']
  · exact BitVec.extractLsb'_eq_self
  all_goals rfl

/-- A word as the fields of CLEAR: OPC, the reserved bits and ID (30_encoding.md R93). -/
theorem opcOf_append_clearFields (w : Word32) : opcOf w ++ w.extractLsb' 4 20 ++ w.extractLsb' 0 4 = w := by
  rw [opcOf, BitVec.extractLsb'_append_extractLsb'_eq_extractLsb', BitVec.extractLsb'_append_extractLsb'_eq_extractLsb']
  · exact BitVec.extractLsb'_eq_self
  all_goals rfl

/-- A word is the encoding of what it decodes to. -/
theorem encode_eq_of_decodeCommand {w : Word32} {i : Instr} (h : decodeCommand w = .ok i) : encode i = .cmd w := by
  obtain hopc | ⟨p, hp, hopc⟩ | hopc | hopc | hopc := opcOf_cases w
  · rw [decodeCommand_nearest hopc] at h
    cases h
    exact congrArg Code.cmd (hopc ▸ opcOf_append_bytes w)
  · rw [decodeCommand_bare hp hopc, decodeBare_ok] at h
    obtain ⟨hoperand, rfl⟩ := h
    rw [encode_bare hp, encodeBare, ← hopc, ← hoperand, opcOf_append_operandOf]
  · rw [decodeCommand_clear hopc, decodeClear_ok] at h
    obtain ⟨hreserved, rfl⟩ := h
    exact congrArg Code.cmd (by rw [← hopc, ← hreserved, opcOf_append_clearFields])
  · rw [decodeCommand_display hopc] at h
    cases h
    rw [encode, ← hopc, opcOf_append_operandOf]
  · rw [decodeCommand_unlisted hopc] at h
    cases h

/-- Settles O2, for each of the two encodings. -/
theorem decodedCodeReencodes : Obligations.DecodedCodeReencodes := by
  intro k i h
  cases k with
  | cmd w => exact encode_eq_of_decodeCommand h
  | panel b => exact encode_of_decodePanel h

open BitVec in
theorem decode_encode_nearest (r g b : Byte) : decode (encode (.nearest r g b)) = .ok (.nearest r g b) := by
  have hopc : opcOf ((0x01 : Byte) ++ r ++ g ++ b) = 0x01 :=
    (extractLsb'_append_eq_of_le (by decide)).trans
      ((extractLsb'_append_eq_of_le (by decide)).trans extractLsb'_append_eq_left)
  have hr : ((0x01 : Byte) ++ r ++ g ++ b).extractLsb' 16 8 = r :=
    (extractLsb'_append_eq_of_le (by decide)).trans
      ((extractLsb'_append_eq_of_le (by decide)).trans extractLsb'_append_eq_right)
  have hg : ((0x01 : Byte) ++ r ++ g ++ b).extractLsb' 8 8 = g :=
    (extractLsb'_append_eq_of_le (by decide)).trans extractLsb'_append_eq_right
  have hb : ((0x01 : Byte) ++ r ++ g ++ b).extractLsb' 0 8 = b := extractLsb'_append_eq_right
  exact (decodeCommand_nearest hopc).trans (by rw [hr, hg, hb])

open BitVec in
theorem decode_encode_clear (id : PalId) : decode (encode (.clear id)) = .ok (.clear id) := by
  have hopc : opcOf ((0x11 : Byte) ++ (0 : BitVec 20) ++ id) = 0x11 :=
    (extractLsb'_append_eq_of_le (by decide)).trans extractLsb'_append_eq_left
  have hreserved : ((0x11 : Byte) ++ (0 : BitVec 20) ++ id).extractLsb' 4 20 = 0 :=
    (extractLsb'_append_eq_of_le (by decide)).trans extractLsb'_append_eq_right
  have hid : ((0x11 : Byte) ++ (0 : BitVec 20) ++ id).extractLsb' 0 4 = id := extractLsb'_append_eq_right
  exact (decodeCommand_clear hopc).trans (decodeClear_ok.mpr ⟨hreserved, congrArg _ hid⟩)

theorem decode_encode_display (len : BitVec 24) : decode (encode (.display len)) = .ok (.display len) := by
  rw [encode, decode, decodeCommand_display (opcOf_append _ _), operandOf_append]

/-- An operand goes field by field; a code without one is a single word or byte, on which the decoder is run. -/
theorem decode_encode (i : Instr) : decode (encode i) = .ok i := by
  cases i
  case nearest r g b => exact decode_encode_nearest r g b
  case clear id => exact decode_encode_clear id
  case display len => exact decode_encode_display len
  all_goals rfl

/-- Settles O1: every instruction is well formed. -/
theorem decodeEncodeRoundTrip : Obligations.DecodeEncodeRoundTrip := fun i _ => decode_encode i

/-! ### The decoder's function in numbers -/

/-- Settles O3: each clause is the decoder's answer for its operation codes, with the fields read as quotients. -/
theorem commandWordDecodesAsTabulated : Obligations.CommandWordDecodesAsTabulated := by
  intro w
  have hopc {n : Nat} (h : w.toNat / 2 ^ 24 = n) : opcOf w = BitVec.ofNat 8 n := h ▸ opcOf_eq_ofNat w
  refine ⟨fun h => ?_, fun p hp h => ?_, fun h => ?_, fun h => ?_, fun h => ?_⟩
  · rw [decodeCommand_nearest (hopc h)]
    simp only [extractLsb'_eq_ofNat, Nat.pow_zero, Nat.div_one]
  · rw [decodeCommand_bare hp (hopc h), decodeBare, hopc h]
    simp only [operandOf_eq_zero]
  · rw [decodeCommand_clear (hopc h), decodeClear, hopc h]
    simp only [clearReserved_eq_zero]
    rw [extractLsb'_eq_ofNat 0, Nat.pow_zero, Nat.div_one]
    rfl
  · rw [decodeCommand_display (hopc h), operandOf, extractLsb'_eq_ofNat, Nat.pow_zero, Nat.div_one]
  · rw [decodeCommand_unlisted, opcOf_eq_ofNat]
    intro hmem
    exact h (toNat_opcOf w ▸ List.mem_map_of_mem (f := BitVec.toNat) hmem)

/-- Settles O4: the decoder is run on each word and byte. -/
theorem specWordsDecode : Obligations.SpecWordsDecode :=
  ⟨rfl, rfl, rfl, rfl, rfl, rfl, rfl, rfl, rfl, rfl⟩

/-! ### A refused word -/

/-- An illegal word is refused (30_encoding.md R95, R102). -/
theorem decodeCommand_illegal {w : Word32} (h : IllegalWord w) : ∃ e, decodeCommand w = .error e := by
  obtain ⟨-, hbare, hclear, -, hunlisted⟩ := commandWordDecodesAsTabulated w
  obtain hopc | ⟨hopc, hoperand⟩ | ⟨hopc, hreserved⟩ := h
  · exact ⟨_, hunlisted hopc⟩
  · obtain ⟨p, hp, hpopc⟩ : ∃ p ∈ bareCommands, p.1 = w.toNat / 2 ^ 24 := List.mem_map.mp hopc
    exact ⟨_, (hbare p hp hpopc.symm).trans (if_neg hoperand)⟩
  · exact ⟨_, (hclear hopc).trans (if_neg hreserved)⟩

/-- A refused word ends its command with ERR = 7 at the core's step (60_exceptions.md R308). -/
theorem step_refusedWord {s : State} {w : Word32} {e : DecodeError} {rest : List Op} {q : List HostAct} (hr : s.run = true)
    (hs : s.script = .instr (.cmd w) :: rest) (hq : s.hostQ = .pass :: q) (he : decodeCommand w = .error e) :
    step s = .next { completed .illegalCommand s with hostQ := q } := by
  rw [step, stepWith_host hq]
  exact coreStep_illegal (s := { s with hostQ := q }) hr hs he

/-- Settles O6: the write is accepted with its OPC in LASTOP, and the core refuses the word. -/
theorem illegalWordOnlySetsErrAndLastOp : Obligations.IllegalWordOnlySetsErrAndLastOp := by
  intro s w q hr hq hw
  obtain ⟨e, he⟩ := decodeCommand_illegal hw
  exact (runSteps_next (cmdWriteStartsCommand s w _ hr hq)).trans
    (runSteps_next (n := 0) (step_refusedWord rfl rfl rfl he))

end Sys2Proof.Machine
end

section
/-! SUPPORT. For the settling of O16 to O19: `nearest` as the library's first minimum of the palette entries, the distance, and RESULT as a number. -/

namespace Sys2Proof.Machine

/-! ### The distance (40_quantizer.md R132) -/

theorem dist_eq_sum_sq (a b : Rgb) :
    dist a b = chanDiff a.r b.r ^ 2 + chanDiff a.g b.g ^ 2 + chanDiff a.b b.b ^ 2 := by
  simp only [dist, sq]

theorem eq_of_chanDiff_sq_le_zero {a b : Byte} (h : chanDiff a b ^ 2 ≤ 0) : a = b := by
  have h0 : chanDiff a b = 0 := (sq_nonpos_iff _).mp h
  rwa [chanDiff, Int.sub_eq_zero, Int.ofNat_inj, BitVec.toNat_inj] at h0

theorem chanDiff_sq_le (a b : Byte) : chanDiff a b ^ 2 ≤ 255 ^ 2 := by
  have ha := a.isLt
  have hb := b.isLt
  exact sq_le_sq' (by rw [chanDiff]; omega) (by rw [chanDiff]; omega)

theorem dist_nonneg (a b : Rgb) : 0 ≤ dist a b := by
  rw [dist_eq_sum_sq]
  positivity

theorem dist_le (a b : Rgb) : dist a b ≤ 195075 := by
  rw [dist_eq_sum_sq]
  linarith [chanDiff_sq_le a.r b.r, chanDiff_sq_le a.g b.g, chanDiff_sq_le a.b b.b]

@[simp] theorem dist_self (a : Rgb) : dist a a = 0 := by
  simp [dist, chanDiff]

/-- Three squares whose sum is at most 0 are each at most 0. -/
theorem eq_of_dist_le_zero {a b : Rgb} (h : dist a b ≤ 0) : a = b := by
  obtain ⟨ar, ag, ab⟩ := a
  obtain ⟨br, bg, bb⟩ := b
  rw [dist_eq_sum_sq] at h
  have hr := sq_nonneg (chanDiff ar br)
  have hg := sq_nonneg (chanDiff ag bg)
  have hb := sq_nonneg (chanDiff ab bb)
  rw [eq_of_chanDiff_sq_le_zero (a := ar) (b := br) (by linarith),
    eq_of_chanDiff_sq_le_zero (a := ag) (b := bg) (by linarith),
    eq_of_chanDiff_sq_le_zero (a := ab) (b := bb) (by linarith)]

/-- Settles O18: a sum of three squares of channel differences, each at most 255 squared. -/
theorem distanceIsSquaredEuclidean : Obligations.DistanceIsSquaredEuclidean :=
  fun a b => ⟨dist_eq_sum_sq a b, dist_nonneg a b, dist_le a b⟩

/-! ### The nearest entry (R133) -/

theorem paletteEntries_ne_nil (p : Palette) : paletteEntries p ≠ [] := List.cons_ne_nil _ _

/-- The strict test of R133 keeps the best entry so far exactly when the library's `minOn` does. -/
theorem closer_eq_minOn (c : Rgb) : closer c = minOn fun e => dist c e.rgb := by
  funext best e
  simp only [closer, minOn, ← not_le, ite_not]

/-- The scan of R133 is the library's scan for the first minimum. -/
theorem nearest_eq_minOn (p : Palette) (c : Rgb) :
    nearest p c = (paletteEntries p).minOn (fun e => dist c e.rgb) (paletteEntries_ne_nil p) := by
  rw [nearest, closer_eq_minOn]
  rfl

theorem nearest_mem (p : Palette) (c : Rgb) : nearest p c ∈ paletteEntries p := by
  rw [nearest_eq_minOn]
  exact List.minOn_mem (h := paletteEntries_ne_nil p)

theorem dist_nearest_le {p : Palette} {e : PalEntry} (c : Rgb) (he : e ∈ paletteEntries p) :
    dist c (nearest p c).rgb ≤ dist c e.rgb := by
  rw [nearest_eq_minOn]
  exact List.apply_minOn_le_of_mem (f := fun e : PalEntry => dist c e.rgb) he

/-- Settles O17: the index is that of the library's first minimum. -/
theorem nearestIsFirstMinimum : Obligations.NearestIsFirstMinimum := by
  intro p c
  have hne := paletteEntries_ne_nil p
  refine ⟨(paletteEntries p).minIdxOn (fun e => dist c e.rgb) hne, nearest p c, ?_, rfl, fun j f hf =>
    ⟨?_, fun hj => ?_⟩⟩
  · rw [List.getElem?_eq_some_iff, nearest_eq_minOn]
    exact ⟨List.minIdxOn_lt_length hne, List.getElem_minIdxOn hne⟩
  · exact dist_nearest_le c (List.mem_of_getElem? hf)
  · obtain ⟨hlt, rfl⟩ := List.getElem?_eq_some_iff.mp hf
    rw [nearest_eq_minOn]
    exact List.apply_minOn_lt_apply_getElem_of_lt_minIdxOn hne hj

/-! ### Palette colours are fixed (R135) -/

/-- A palette colour is at distance 0 from its own entry, so the nearest entry has that colour. -/
theorem nearest_rgb_of_mem {p : Palette} {e : PalEntry} (he : e ∈ paletteEntries p) :
    (nearest p e.rgb).rgb = e.rgb :=
  (eq_of_dist_le_zero ((dist_nearest_le e.rgb he).trans_eq (dist_self e.rgb))).symm

/-- Settles O19: the nearest entry of a palette colour has its colour, and distinct colours make it the same entry. -/
theorem nearestFixesPaletteColours : Obligations.NearestFixesPaletteColours := by
  refine ⟨fun p hp e he => ?_, fun p c => ⟨?_, nearest_rgb_of_mem (nearest_mem p c)⟩⟩
  · have hnodup : ((paletteEntries p).map PalEntry.rgb).Nodup := hp
    exact List.inj_on_of_nodup_map hnodup (nearest_mem p e.rgb) he (nearest_rgb_of_mem he)
  · exact List.mem_map_of_mem (f := PalEntry.id) (nearest_mem p c)

/-! ### NEAREST (R134) -/

/-- RESULT as the sum of its fields (10_state.md R24). -/
theorem resultWord_toNat (e : PalEntry) :
    (resultWord e).toNat = e.id.toNat * 2 ^ 24 + e.rgb.r.toNat * 2 ^ 16 + e.rgb.g.toNat * 2 ^ 8 + e.rgb.b.toNat := by
  simp only [resultWord, toNat_append_add, BitVec.ofNat_eq_ofNat, BitVec.toNat_zero]
  ring

/-- Settles O16: the word is `resultWord` of the nearest entry. -/
theorem nearestWritesResult : Obligations.NearestWritesResult :=
  fun _ _ _ _ => ⟨_, rfl, resultWord_toNat _⟩

end Sys2Proof.Machine
end

section
/-! SUPPORT. For the settling of O20 to O22 and O27: how IN_DIM classifies an input, what a pass that draws pixel after pixel leaves in FRAME_RAM, and why no pass answers over a pixel that was never written. -/

namespace Sys2Proof.Machine

/-! ### IN_DIM (10_state.md R25, 41_orient.md R150) -/

theorem inW_eq_mod (s : State) : inW s = s.inDim.toNat % 65536 := by
  simp [inW, BitVec.extractLsb'_toNat]

theorem inH_eq_div (s : State) : inH s = s.inDim.toNat / 65536 := by
  rw [inH, BitVec.extractLsb'_toNat, Nat.shiftRight_eq_div_pow, Nat.mod_eq_of_lt]
  have hlt := s.inDim.isLt
  omega

/-- IN_DIM is determined by its two fields. -/
theorem inDim_eq_iff (s : State) (v : Word32) :
    s.inDim = v ↔ inW s = v.toNat % 65536 ∧ inH s = v.toNat / 65536 := by
  rw [← BitVec.toNat_inj, inW_eq_mod, inH_eq_div]
  omega

theorem classify_landscape {s : State} (h : s.inDim = 0x01E00320) :
    classify Config.epd6 (inW s) (inH s) = .landscape :=
  if_pos ((inDim_eq_iff s _).mp h)

theorem classify_portrait {s : State} (h : s.inDim = 0x032001E0) :
    classify Config.epd6 (inW s) (inH s) = .portrait := by
  obtain ⟨hw, hh⟩ := (inDim_eq_iff s _).mp h
  rw [hw, hh]
  rfl

theorem classify_mismatch {s : State} (hl : s.inDim ≠ 0x01E00320) (hp : s.inDim ≠ 0x032001E0) :
    classify Config.epd6 (inW s) (inH s) = .mismatch :=
  (if_neg fun h => hl ((inDim_eq_iff s _).mpr h)).trans (if_neg fun h => hp ((inDim_eq_iff s _).mpr h))

/-- Settles O20: such an IN_DIM is a Mismatch, which ORIENT refuses before any access. -/
theorem orientRefusesOtherDimensions : Obligations.OrientRefusesOtherDimensions :=
  fun _ hl hp => if_pos (classify_mismatch hl hp)

/-- ORIENT of a valid input ends as the copy into FRAME_RAM does (R153). -/
theorem exec_orient_valid {s : State} {o : Orientation} (hc : classify Config.epd6 (inW s) (inH s) = o)
    (ho : o ≠ .mismatch) :
    exec .orient s = orUnwritten (orientFrame Config.epd6 o s.inRam s.frameRam) s
      fun m => complete .ok { s with frameRam := m } := by
  subst hc
  exact if_neg ho

/-! ### A frame drawn in row-major order -/

/-- The first `n` pixels of the `w × h` raster `f`, in row-major order, are drawn in `m` over `m₀`, and every byte past the raster is `m₀`'s. -/
structure DrawnTo (w h : Nat) (f : Raster) (m₀ : Mem) (n : Nat) (m : Mem) : Prop where
  pixels : ∀ x < w, ∀ y, y * w + x < n → readPix m w x y = some (f x y)
  outside : ∀ a, 3 * w * h ≤ a → readByte m a = readByte m₀ a

section

variable {w h x y : Nat} {f : Raster} {m₀ m : Mem}

theorem drawnTo_zero : DrawnTo w h f m₀ 0 m₀ :=
  ⟨fun _ _ _ hlt => absurd hlt (Nat.not_lt_zero _), fun _ _ => rfl⟩

/-- Writing the next pixel draws one pixel more. -/
theorem DrawnTo.succ (hm : DrawnTo w h f m₀ (y * w + x) m) (hx : x < w) (hy : y < h) :
    DrawnTo w h f m₀ (y * w + x + 1) (writePix m w x y (f x y)) where
  pixels x' hx' y' hlt := by
    by_cases he : x' = x ∧ y' = y
    · obtain ⟨rfl, rfl⟩ := he
      exact readPix_writePix_same ..
    · have hne : y' * w + x' ≠ y * w + x := fun e => he (pixOffset_inj hx' hx e)
      rw [readPix_writePix_other m _ hx hx' he]
      exact hm.pixels x' hx' y' (by omega)
  outside a ha := by
    have hlt := pixOffset_lt hx hy
    rw [readByte_writePix, if_neg (by omega), if_neg (by omega), if_neg (by omega)]
    exact hm.outside a ha

/-- A frame drawn to its end holds the raster. -/
theorem DrawnTo.holdsRaster (hm : DrawnTo w h f m₀ (h * w) m) : HoldsRaster m w h f :=
  fun x hx y hy => hm.pixels x hx y (by nlinarith)

end

/-- The loops of R153 answer when every pixel they take reads, and draw what they take. -/
theorem orientFrame_total {c : Config} {o : Orientation} {inRam m₀ : Mem} {f : Raster}
    (hsrc : ∀ x < c.W, ∀ y < c.H, sourcePix c o inRam x y = some (f x y)) :
    ∃ m, orientFrame c o inRam m₀ = some m ∧ DrawnTo c.W c.H f m₀ (c.H * c.W) m := by
  have hrow (y : Nat) (u : Mem) (hy : y < c.H) (hu : DrawnTo c.W c.H f m₀ (y * c.W) u) :
      ∃ v, loop (orientPixel c o inRam y) c.W 0 u = some v ∧ DrawnTo c.W c.H f m₀ (y * c.W + (0 + c.W)) v := by
    refine loop_total (fun x => DrawnTo c.W c.H f m₀ (y * c.W + x)) (fun x v _ hx hv => ?_) hu
    rw [Nat.zero_add] at hx
    exact ⟨_, by rw [orientPixel, hsrc x hx y hy], hv.succ hx hy⟩
  have hpass : ∃ m, orientFrame c o inRam m₀ = some m ∧ DrawnTo c.W c.H f m₀ ((0 + c.H) * c.W) m := by
    refine loop_total (fun y => DrawnTo c.W c.H f m₀ (y * c.W)) (fun y u _ hy hu => ?_) ?_
    · simpa [Nat.succ_mul] using hrow y u (by omega) hu
    · simpa using drawnTo_zero
  rwa [Nat.zero_add] at hpass

/-- ORIENT of a valid input whose pixels all read completes with them in FRAME_RAM. -/
theorem exec_orient_draws {s : State} {o : Orientation} {f : Raster}
    (hc : classify Config.epd6 (inW s) (inH s) = o) (ho : o ≠ .mismatch)
    (hsrc : ∀ x < 800, ∀ y < 480, sourcePix Config.epd6 o s.inRam x y = some (f x y)) :
    ∃ t, exec .orient s = .next t ∧ HoldsRaster t.frameRam 800 480 f
      ∧ (∀ a, 1152000 ≤ a → readByte t.frameRam a = readByte s.frameRam a)
      ∧ t = { completed .ok s with frameRam := t.frameRam } := by
  obtain ⟨m, hm, hdrawn⟩ := orientFrame_total (c := Config.epd6) (m₀ := s.frameRam) hsrc
  exact ⟨complete .ok { s with frameRam := m }, by rw [exec_orient_valid hc ho, hm]; rfl,
    hdrawn.holdsRaster, hdrawn.outside, rfl⟩

/-- Settles O21: a landscape input's pixel is taken from its own place. -/
theorem orientCopiesLandscape : Obligations.OrientCopiesLandscape :=
  fun _ _ hdim hin => exec_orient_draws (classify_landscape hdim) nofun hin

/-- Settles O22: frame pixel (x, y) is taken from column `479 - y` of row `x`, and the inverse map reads the frame at (row, `479 - col`). -/
theorem orientRotatesPortrait : Obligations.OrientRotatesPortrait := by
  intro s f hdim hin
  obtain ⟨t, hexec, hframe, houtside, ht⟩ :=
    exec_orient_draws (f := fun x y => f (479 - y) x) (classify_portrait hdim) nofun
      fun x hx y hy => hin (479 - y) (by omega) x hx
  refine ⟨t, hexec, hframe, fun col hcol row hrow => ?_, houtside, ht⟩
  have hback : readPix t.frameRam 800 row (479 - col) = some (f (479 - (479 - col)) row) :=
    hframe row hrow (479 - col) (by omega)
  rwa [Nat.sub_sub_self (by omega)] at hback

/-! ### A pass over an unwritten pixel does not answer (20_memory.md R66) -/

/-- A byte of the raster that was never written leaves one of its pixels unreadable. -/
theorem exists_unreadPix {m : Mem} {w h : Nat} (hm : ¬AllWritten m (3 * w * h)) :
    ∃ x < w, ∃ y < h, readPix m w x y = none := by
  obtain ⟨a, ha, hnone⟩ : ∃ a < 3 * w * h, readByte m a = none := by simpa [AllWritten] using hm
  rw [mul_assoc] at ha
  have hpix : a / 3 < w * h := by omega
  refine ⟨a / 3 % w, Nat.mod_lt _ (Nat.pos_of_lt_mul_right hpix), a / 3 / w, Nat.div_lt_of_lt_mul hpix,
    readPix_eq_none.mpr ⟨a % 3, Nat.mod_lt _ (by omega), ?_⟩⟩
  rwa [pixOffset, Nat.div_add_mod', Nat.div_add_mod]

/-- A loop does not answer when one of its bodies, under what the bodies before it keep, does not. -/
theorem loop_eq_none {α : Type} {body : Nat → α → Option α} (P : α → Prop) {n k : Nat} {x : α} (hk : k < n)
    (keep : ∀ j u v, j < n → P u → body j u = some v → P v) (stop : ∀ u, P u → body k u = none) (h0 : P x) :
    loop body n 0 x = none := by
  cases hy : loop body n 0 x with
  | none => rfl
  | some y =>
    obtain ⟨-, hle⟩ : P y ∧ 0 + n ≤ k := by
      refine loop_invariant (fun j u => P u ∧ j ≤ k) (fun j u v _ hj hu hv => ?_) ⟨h0, Nat.zero_le k⟩ hy
      obtain ⟨hPu, hjk⟩ := hu
      have hne : j ≠ k := by
        rintro rfl
        rw [stop u hPu] at hv
        cases hv
      exact ⟨keep j u v (by omega) hPu hv, by omega⟩
    omega

theorem loop_eq_none_of_body {α : Type} {body : Nat → α → Option α} {n k : Nat} {x : α} (hk : k < n)
    (stop : ∀ u, body k u = none) : loop body n 0 x = none :=
  loop_eq_none (fun _ => True) hk (fun _ _ _ _ _ _ => trivial) (fun u _ => stop u) trivial

/-- The loops of R153 do not answer when a pixel they take does not read. -/
theorem orientFrame_eq_none {c : Config} {o : Orientation} {inRam m : Mem} {x y : Nat} (hx : x < c.W) (hy : y < c.H)
    (hsrc : sourcePix c o inRam x y = none) : orientFrame c o inRam m = none := by
  refine loop_eq_none_of_body hy fun u => loop_eq_none_of_body hx fun v => ?_
  rw [orientPixel, hsrc]

/-- Replacing a pixel that reads leaves an unreadable pixel unreadable. -/
theorem readPix_writePix_none {m : Mem} {w x y x₀ y₀ : Nat} {old p : Rgb} (hx : x < w) (hx₀ : x₀ < w)
    (hold : readPix m w x y = some old) (hnone : readPix m w x₀ y₀ = none) :
    readPix (writePix m w x y p) w x₀ y₀ = none := by
  have hne : ¬(x₀ = x ∧ y₀ = y) := by
    rintro ⟨rfl, rfl⟩
    rw [hold] at hnone
    cases hnone
  rw [readPix_writePix_other m p hx hx₀ hne, hnone]

/-- Diffusion adds to pixels that read, so it leaves an unreadable pixel unreadable. -/
theorem spread_unread {w x₀ y₀ : Nat} {l : List Share} {m m' : Mem} (hl : ∀ n ∈ l, n.x < w) (hx₀ : x₀ < w)
    (hs : spread w l m = some m') (hnone : readPix m w x₀ y₀ = none) : readPix m' w x₀ y₀ = none := by
  induction l generalizing m with
  | nil =>
    cases hs
    exact hnone
  | cons n l ih =>
    cases hp : readPix m w n.x n.y with
    | none => simp [spread, hp] at hs
    | some p =>
      simp only [spread, hp] at hs
      exact ih (fun k hk => hl k (List.mem_cons_of_mem _ hk)) hs
        (readPix_writePix_none (hl n List.mem_cons_self) hx₀ hp hnone)

/-- A visit replaces pixels that read, so it leaves an unreadable pixel unreadable. -/
theorem visit_unread {w x y x₀ y₀ : Nat} {p : Palette} {shares : Rgb → Rgb → List Share} {m m' : Mem}
    (hsh : ∀ old q, ∀ n ∈ shares old q, n.x < w) (hx : x < w) (hx₀ : x₀ < w)
    (hv : visit w p shares x y m = some m') (hnone : readPix m w x₀ y₀ = none) : readPix m' w x₀ y₀ = none := by
  cases hold : readPix m w x y with
  | none => simp [visit, hold] at hv
  | some old =>
    simp only [visit, hold] at hv
    exact spread_unread (hsh old _) hx₀ hv (readPix_writePix_none hx hx₀ hold hnone)

/-- A dither pass does not answer over a frame with a byte never written: the pixel is still unreadable when its visit comes. -/
theorem ditherPass_eq_none {c : Config} {p : Palette} {shares : Nat → Nat → Rgb → Rgb → List Share} {m : Mem}
    (hsh : ∀ x y old q, ∀ n ∈ shares x y old q, n.x < c.W ∧ n.y < c.H) (hm : ¬AllWritten m (frameSize c)) :
    ditherPass c p shares m = none := by
  obtain ⟨x₀, hx₀, y₀, hy₀, hnone⟩ := exists_unreadPix hm
  have hkeep (y x : Nat) (u v : Mem) (hx : x < c.W) (hu : readPix u c.W x₀ y₀ = none)
      (hv : visit c.W p (shares x y) x y u = some v) : readPix v c.W x₀ y₀ = none :=
    visit_unread (fun old q n hn => (hsh x y old q n hn).1) hx hx₀ hv hu
  refine loop_eq_none (fun u => readPix u c.W x₀ y₀ = none) hy₀ (fun y u v _ hu hv => ?_) (fun u hu => ?_) hnone
  · exact loop_invariant (fun _ u => readPix u c.W x₀ y₀ = none)
      (fun x u v _ hx => hkeep y x u v (by omega)) hu hv
  · refine loop_eq_none (fun u => readPix u c.W x₀ y₀ = none) hx₀ (hkeep y₀) (fun v hv => ?_) hu
    rw [visit, hv]

/-- The flattened index of a pixel gives the pixel back (00_scope.md R10). -/
theorem flatPix_index {c : Config} {x : Nat} (frame : Mem) (y : Nat) (hx : x < c.W) :
    flatPix c frame (y * c.W + x) = readPix frame c.W x y := by
  rw [flatPix, Nat.mul_add_mod_of_lt hx, mul_comm y, Nat.mul_add_div (by omega), Nat.div_eq_of_lt hx, Nat.add_zero]

theorem packByte_eq_none {c : Config} {p : Palette} {frame out : Mem} {k : Nat}
    (h : flatPix c frame (2 * k) = none ∨ flatPix c frame (2 * k + 1) = none) : packByte c p frame k out = none := by
  unfold packByte
  split
  next ha hb => simp [ha, hb] at h
  next => rfl

/-- PACK's loop does not answer over a frame with a byte never written: each pixel is one of the two of a packed byte. -/
theorem packLoop_eq_none {c : Config} {p : Palette} {frame m : Mem} (heven : c.W * c.H % 2 = 0)
    (hm : ¬AllWritten frame (frameSize c)) : loop (packByte c p frame) (packSize c) 0 m = none := by
  obtain ⟨x, hx, y, hy, hnone⟩ := exists_unreadPix hm
  have hlt : y * c.W + x < c.W * c.H := by nlinarith
  have hflat : flatPix c frame (y * c.W + x) = none := (flatPix_index frame y hx).trans hnone
  obtain ⟨k, hk⟩ := Nat.even_or_odd' (y * c.W + x)
  refine loop_eq_none_of_body (k := k) (by rw [packSize]; omega) fun u => packByte_eq_none ?_
  obtain hk | hk := hk
  · exact .inl (hk ▸ hflat)
  · exact .inr (hk ▸ hflat)

/-! ### Commands that meet an unwritten byte (60_exceptions.md R309) -/

theorem orUnwritten_of_none {α : Type} {r : Option α} (s : State) (k : α → State) (hr : r = none) :
    orUnwritten r s k = .next (haltCommand .unwrittenRead s) := by
  rw [hr, orUnwritten]

/-- ORIENT of a valid input halts when a pixel it takes does not read. -/
theorem exec_orient_unread {s : State} {o : Orientation} {x y : Nat}
    (hc : classify Config.epd6 (inW s) (inH s) = o) (ho : o ≠ .mismatch) (hx : x < 800) (hy : y < 480)
    (hsrc : sourcePix Config.epd6 o s.inRam x y = none) :
    exec .orient s = .next (haltCommand .unwrittenRead s) :=
  (exec_orient_valid hc ho).trans (orUnwritten_of_none _ _ (orientFrame_eq_none hx hy hsrc))

/-- ORIENT takes every pixel of a valid input (R154), so it halts when a byte of the input was never written. -/
theorem exec_orient_unwritten {s : State} (hdim : s.inDim = 0x01E00320 ∨ s.inDim = 0x032001E0)
    (hm : ¬AllWritten s.inRam 1152000) : exec .orient s = .next (haltCommand .unwrittenRead s) := by
  obtain hdim | hdim := hdim
  · obtain ⟨x, hx, y, hy, hnone⟩ := exists_unreadPix (w := 800) (h := 480) hm
    exact exec_orient_unread (classify_landscape hdim) nofun hx hy hnone
  · obtain ⟨col, hcol, row, hrow, hnone⟩ := exists_unreadPix (w := 480) (h := 800) hm
    rw [← Nat.sub_sub_self (show col ≤ 479 by omega)] at hnone
    exact exec_orient_unread (classify_portrait hdim) nofun hrow (by omega) hnone

/-- The frame of this hardware has an even pixel count, so PACK ends as its loop does (43_packer.md R192). -/
theorem exec_pack (s : State) :
    exec .pack s = orUnwritten (loop (packByte Config.epd6 s.palette s.frameRam) (packSize Config.epd6) 0 s.packRam) s
      fun m => complete .ok { s with packRam := m } := by
  rw [exec, execPack, packCmd, if_neg (by decide)]

/-- DISPLAY's stream reads its byte before it emits anything. -/
theorem step_stream_unwritten {s : State} {k n : Nat} {rest : List Op} (hrun : s.run = true) (hq : s.hostQ = [])
    (hs : s.script = .stream k (n + 1) :: rest) (hnone : readByte s.packRam k = none) :
    step s = .next (haltCommand .unwrittenRead s) := by
  rw [step, stepWith_alone hq, coreStep_op hrun hs (by simp)]
  simp only [microStep, hnone]
  rfl

theorem step_halted {s : State} (hrun : s.run = true) (hq : s.hostQ = []) (hs : s.script = [.halted]) :
    step s = .next s := by
  rw [step, stepWith_alone hq, coreStep_op hrun hs (by simp), microStep, ← hs]

/-- Settles O27: no pass over an unwritten byte answers, and the stream reads its byte before its first event. -/
theorem commandsFaultOnUnwrittenBytes : Obligations.CommandsFaultOnUnwrittenBytes := by
  rintro s t rfl
  refine ⟨exec_orient_unwritten, fun hm => ⟨?fs, ?atk, ?pack⟩, fun _ _ _ => step_stream_unwritten, step_halted⟩
  case fs => exact orUnwritten_of_none _ _ (ditherPass_eq_none (fun _ _ _ _ => fsShares_in) hm)
  case atk => exact orUnwritten_of_none _ _ (ditherPass_eq_none (fun _ _ _ _ => atkShares_in) hm)
  case pack => exact (exec_pack s).trans (orUnwritten_of_none _ _ (packLoop_eq_none rfl hm))

end Sys2Proof.Machine
end

section
/-! SUPPORT. For the settling of O23 to O26 and O28 to O30: the amounts a dither adds, the pass on memory as the pass on the raster, and what the pass makes of each pixel. -/

namespace Sys2Proof.Machine

/-! ### The amounts (42_dither.md R161, R166, R169) -/

theorem toNat_clamp8 (v : Int) : ((clamp8 v).toNat : Int) = min 255 (max 0 v) := by
  rw [clamp8, BitVec.toNat_ofNat]
  omega

/-- Settles O30: each channel is a `clamp8`. -/
theorem diffusionSaturates : Obligations.DiffusionSaturates :=
  fun _ _ => ⟨toNat_clamp8 _, toNat_clamp8 _, toNat_clamp8 _⟩

/-- Division rounding toward zero keeps the sign and divides the magnitude. -/
theorem truncDiv_sign_mul (a : Int) (k n : Nat) : truncDiv (a.sign * k) n = a.sign * ((k / n : Nat) : Int) := by
  obtain h | h | h := Int.sign_trichotomy a
  · rw [h, truncDiv, one_mul, one_mul, Int.ofNat_tdiv]
  · rw [h, truncDiv, zero_mul, zero_mul, Int.zero_tdiv]
  · rw [h, truncDiv, neg_one_mul, neg_one_mul, Int.neg_tdiv, Int.ofNat_tdiv]

theorem truncDiv_eq_sign_mul (a : Int) (n : Nat) : truncDiv a n = a.sign * ((a.natAbs / n : Nat) : Int) := by
  rw [← truncDiv_sign_mul, Int.sign_mul_natAbs]

/-- Settles O28: adding eight times the sign adds eight to the magnitude. -/
theorem fsWeightRounds : Obligations.FsWeightRounds := by
  refine ⟨fun e w => ⟨truncDiv_eq_sign_mul _ 16, Int.mul_fdiv_self_le (by decide), ?floor, ?round⟩, rfl⟩
  case floor =>
    rw [mul_add, mul_one]
    exact Int.lt_mul_fdiv_self_add (by decide)
  case round =>
    have hshift : e * w + 8 * (e * w).sign = (e * w).sign * (((e * w).natAbs + 8 : Nat) : Int) := by
      rw [Nat.cast_add, mul_add, Int.sign_mul_natAbs, Nat.cast_ofNat, mul_comm 8]
    rw [fsw, hshift]
    exact truncDiv_sign_mul _ _ 16

/-- An eighth of a channel difference, which is at most 255 in magnitude. -/
theorem truncDiv_chanDiff_eight (a b : Byte) :
    truncDiv (chanDiff a b) 8 = (chanDiff a b).sign * (((chanDiff a b).natAbs / 8 : Nat) : Int)
    ∧ -31 ≤ truncDiv (chanDiff a b) 8 ∧ truncDiv (chanDiff a b) 8 ≤ 31 := by
  have heq := truncDiv_eq_sign_mul (chanDiff a b) 8
  have hle : (chanDiff a b).natAbs / 8 ≤ 31 := by
    have ha := a.isLt
    have hb := b.isLt
    rw [chanDiff]
    omega
  refine ⟨heq, ?_⟩
  rw [Nat.cast_ofNat] at heq
  rw [heq]
  obtain h | h | h := Int.sign_trichotomy (chanDiff a b) <;> rw [h] <;> omega

/-- Settles O29: the three channels are eighths of channel differences. -/
theorem atkinsonErrorTruncates : Obligations.AtkinsonErrorTruncates := by
  intro old q p hp
  simp only [List.mem_cons, List.not_mem_nil, or_false] at hp
  obtain rfl | rfl | rfl := hp
  · exact truncDiv_chanDiff_eight old.r q.r
  · exact truncDiv_chanDiff_eight old.g q.g
  · exact truncDiv_chanDiff_eight old.b q.b

@[simp] theorem pixelError_self (q : Rgb) : pixelError q q = ⟨0, 0, 0⟩ := by
  simp [pixelError, chanDiff]

@[simp] theorem fsAmount_zero (r : FsRound) (w : Int) : fsAmount r ⟨0, 0, 0⟩ w = ⟨0, 0, 0⟩ := by
  cases r <;> simp [fsAmount, fsw, truncDiv, floorDiv]

@[simp] theorem atkAmount_zero : atkAmount ⟨0, 0, 0⟩ = ⟨0, 0, 0⟩ := rfl

theorem clamp8_toNat (b : Byte) : clamp8 b.toNat = b := by
  have hb := b.isLt
  rw [← BitVec.toNat_inj, ← Int.ofNat_inj, toNat_clamp8]
  omega

@[simp] theorem addSat_zero (p : Rgb) : addSat p ⟨0, 0, 0⟩ = p := by
  simp [addSat, clamp8_toNat]

/-! ### Where the shares go (R165, R170, R171, R173) -/

/-- What a dither spreads at pixel (x, y), whose value was quantized from one colour to another. -/
abbrev ErrorShares := Nat → Nat → Rgb → Rgb → List Share

/-- The share goes to a pixel that comes after (x, y) in row-major order. -/
def Share.After (n : Share) (x y : Nat) : Prop := y < n.y ∨ n.y = y ∧ x < n.x

theorem fsShares_mem {c : Config} {x y : Nat} {old q : Rgb} {n : Share} (hn : n ∈ fsShares c x y old q) :
    n.After x y ∧ ∃ w, n.v = fsAmount c.fsRound (pixelError old q) w := by
  unfold fsShares at hn
  split at hn
  · simp only [List.mem_cons, List.not_mem_nil, or_false] at hn
    obtain rfl | rfl | rfl | rfl := hn
    · exact ⟨.inr ⟨rfl, Nat.lt_succ_self x⟩, _, rfl⟩
    all_goals exact ⟨.inl (Nat.lt_succ_self y), _, rfl⟩
  · cases hn

/-- The down-left share, wrapped or not (R171), goes to a later pixel of a frame that has one to the right. -/
theorem atkWestShare_mem {c : Config} {x y : Nat} {v : Amount} {n : Share} (hx : x + 1 < c.W)
    (hn : n ∈ atkWestShare c x y v) : n.After x y ∧ n.v = v := by
  unfold atkWestShare at hn
  split at hn
  · split at hn
    · cases hn
    · obtain rfl := List.mem_singleton.mp hn
      exact ⟨.inr ⟨rfl, Nat.lt_sub_of_add_lt hx⟩, rfl⟩
  · obtain rfl := List.mem_singleton.mp hn
    exact ⟨.inl (Nat.lt_succ_self y), rfl⟩

theorem atkShares_mem {c : Config} {x y : Nat} {old q : Rgb} {n : Share} (hn : n ∈ atkShares c x y old q) :
    n.After x y ∧ n.v = atkAmount (pixelError old q) := by
  unfold atkShares at hn
  split at hn
  · next hin =>
    simp only [List.mem_append, List.mem_cons, List.not_mem_nil, or_false] at hn
    obtain ((rfl | rfl) | hn) | rfl | rfl | rfl := hn
    · exact ⟨.inr ⟨rfl, Nat.lt_add_of_pos_right (by decide)⟩, rfl⟩
    · exact ⟨.inr ⟨rfl, Nat.lt_add_of_pos_right (by decide)⟩, rfl⟩
    · exact atkWestShare_mem (by omega) hn
    all_goals exact ⟨.inl (Nat.lt_add_of_pos_right (by decide)), rfl⟩
  · cases hn

/-! ### A visit on the raster -/

/-- The saturating add of one share (R161). -/
def addShare (f : Raster) (n : Share) : Raster := setAt f n.x n.y (addSat (f n.x n.y) n.v)

/-- The visit of R160 on the raster, its diffusion the shares the command's own visit spreads. -/
def visitRaster (p : Palette) (shares : ErrorShares) (x y : Nat) (f : Raster) : Raster :=
  (shares x y (f x y) (nearest p (f x y)).rgb).foldl addShare (setAt f x y (nearest p (f x y)).rgb)

/-- The visit of R167 spreads the Floyd–Steinberg shares. -/
theorem fsVisitRaster_eq (c : Config) (p : Palette) : fsVisitRaster c p = visitRaster p (fsShares c) := by
  funext x y f
  have hrange : ((y : Int) < c.H - 1 ∧ 1 ≤ x ∧ (x : Int) < c.W - 1) ↔ (y + 1 < c.H ∧ 1 ≤ x ∧ x + 1 < c.W) := by omega
  simp only [fsVisitRaster, visitRaster, fsShares, hrange]
  split
  · have hwest : (x : Int) + -1 = ((x - 1 : Nat) : Int) := by omega
    simp [fsTable, diffuseAt, addShare, hwest]
  · rfl

/-- A contribution of R172 that stays east of the frame's west edge. -/
theorem atkStepRaster_east {c : Config} {x y : Nat} {v : Amount} {f : Raster} {t : Int × Int} (h : 0 ≤ (x : Int) + t.1) :
    atkStepRaster c x y v f t = diffuseAt f (x + t.1) (y + t.2) v :=
  if_neg (Int.not_lt.mpr h)

/-- The down-left contribution of R172 is the down-left share, dropped or wrapped at the west edge (R171). -/
theorem atkStepRaster_west (c : Config) (x y : Nat) (v : Amount) (f : Raster) :
    atkStepRaster c x y v f (-1, 1) = (atkWestShare c x y v).foldl addShare f := by
  obtain rfl | hx := Nat.eq_zero_or_pos x
  · simp only [atkStepRaster, atkWestShare]
    cases c.atkWest
    · rfl
    · have hlast : ((c.W : Int) - 1).toNat = c.W - 1 := by omega
      simp [diffuseAt, addShare, hlast]
  · have hwest : (x : Int) + -1 = ((x - 1 : Nat) : Int) := by omega
    rw [atkStepRaster_east (by omega), atkWestShare, if_neg (by omega), hwest]
    rfl

/-- The visit of R172 spreads the Atkinson shares. -/
theorem atkVisitRaster_eq (c : Config) (p : Palette) : atkVisitRaster c p = visitRaster p (atkShares c) := by
  funext x y f
  have hrange : ((y : Int) < c.H - 2 ∧ (x : Int) < c.W - 2) ↔ (y + 2 < c.H ∧ x + 2 < c.W) := by omega
  simp only [atkVisitRaster, visitRaster, atkShares, hrange]
  split
  · simp only [atkTable, List.foldl_cons, List.foldl_nil, List.foldl_append, atkStepRaster_west]
    simp (disch := omega) only [atkStepRaster_east]
    rfl
  · rfl

/-! ### The pass on memory is the pass on the raster (R167, R172) -/

/-- A fold over a range keeps what each of its steps keeps. -/
theorem foldl_range_invariant {β : Type} {g : β → Nat → β} (P : Nat → β → Prop) {n : Nat} {b : β}
    (step : ∀ j u, j < n → P j u → P (j + 1) (g u j)) (h0 : P 0 b) : P n ((List.range n).foldl g b) := by
  induction n with
  | zero => exact h0
  | succ n ih =>
    rw [List.range_succ, List.foldl_append]
    exact step n _ n.lt_succ_self (ih fun j u hj => step j u (by omega))

/-- A loop each of whose bodies answers as a step of a fold does answers as the fold does. -/
theorem loop_eq_foldl {α β : Type} {body : Nat → α → Option α} {g : β → Nat → β} (R : α → β → Prop) {n : Nat} {x : α}
    {b : β} (step : ∀ j u d, j < n → R u d → ∃ v, body j u = some v ∧ R v (g d j)) (h0 : R x b) :
    ∃ y, loop body n 0 x = some y ∧ R y ((List.range n).foldl g b) := by
  obtain ⟨y, hy, hR⟩ := loop_total (n := n) (i := 0) (fun j u => R u ((List.range j).foldl g b))
    (fun j u _ hj hu => by
      rw [List.range_succ, List.foldl_append]
      exact step j u _ (by omega) hu) h0
  exact ⟨y, hy, by rwa [Nat.zero_add] at hR⟩

/-- The memory `m` holds the `w × h` raster `f`, and every byte past the raster is `m₀`'s. -/
structure HoldsOver (w h : Nat) (m₀ m : Mem) (f : Raster) : Prop where
  holds : HoldsRaster m w h f
  outside : ∀ a, 3 * w * h ≤ a → readByte m a = readByte m₀ a

section

variable {w h x y : Nat} {m₀ m : Mem} {f : Raster} {p : Palette}

/-- A pixel write is `setAt` on the raster. -/
theorem HoldsOver.writePix (hm : HoldsOver w h m₀ m f) (hx : x < w) (hy : y < h) (q : Rgb) :
    HoldsOver w h m₀ (writePix m w x y q) (setAt f x y q) where
  holds x' hx' y' hy' := by
    rw [setAt]
    split
    · next he =>
      obtain ⟨rfl, rfl⟩ := he
      exact readPix_writePix_same ..
    · next he =>
      rw [readPix_writePix_other m q hx hx' he]
      exact hm.holds x' hx' y' hy'
  outside a ha := by
    have hlt := pixOffset_lt hx hy
    rw [readByte_writePix, if_neg (by omega), if_neg (by omega), if_neg (by omega)]
    exact hm.outside a ha

/-- Diffusion into pixels of the frame is `addShare` on the raster. -/
theorem spread_holdsOver {l : List Share} (hl : ∀ n ∈ l, n.x < w ∧ n.y < h) (hm : HoldsOver w h m₀ m f) :
    ∃ m', spread w l m = some m' ∧ HoldsOver w h m₀ m' (l.foldl addShare f) := by
  induction l generalizing m f with
  | nil => exact ⟨m, rfl, hm⟩
  | cons n l ih =>
    obtain ⟨hx, hy⟩ := hl n List.mem_cons_self
    simp only [spread, hm.holds n.x hx n.y hy]
    exact ih (fun k hk => hl k (List.mem_cons_of_mem _ hk)) (hm.writePix hx hy _)

theorem visit_holdsOver {shares : ErrorShares}
    (hsh : ∀ old q, ∀ n ∈ shares x y old q, n.x < w ∧ n.y < h) (hx : x < w) (hy : y < h) (hm : HoldsOver w h m₀ m f) :
    ∃ m', visit w p (shares x y) x y m = some m' ∧ HoldsOver w h m₀ m' (visitRaster p shares x y f) := by
  simp only [visit, hm.holds x hx y hy]
  exact spread_holdsOver (hsh _ _) (hm.writePix hx hy _)

/-- A pass whose shares stay in the frame answers with the raster its visits make. -/
theorem ditherPass_holdsOver {c : Config} {shares : ErrorShares}
    (hsh : ∀ x y old q, ∀ n ∈ shares x y old q, n.x < c.W ∧ n.y < c.H) (hm : HoldsOver c.W c.H m₀ m f) :
    ∃ m', ditherPass c p shares m = some m' ∧ HoldsOver c.W c.H m₀ m' (passRaster c (visitRaster p shares) f) :=
  loop_eq_foldl (HoldsOver c.W c.H m₀)
    (fun y _ _ hy => loop_eq_foldl (HoldsOver c.W c.H m₀) fun x _ _ hx => visit_holdsOver (hsh x y) hx hy) hm

/-- Memories that hold the same raster agree on its bytes, and over the same memory on all bytes. -/
theorem HoldsOver.readByte_eq (hm : HoldsOver w h m₀ m f) (h₀ : HoldsRaster m₀ w h f) (a : Nat) :
    readByte m a = readByte m₀ a := by
  obtain ha | ha := Nat.lt_or_ge a (3 * w * h)
  · rw [mul_assoc] at ha
    have hpix : a / 3 < w * h := by omega
    have hx : a / 3 % w < w := Nat.mod_lt _ (Nat.pos_of_lt_mul_right hpix)
    have hy : a / 3 / w < h := Nat.div_lt_of_lt_mul hpix
    have hoff : pixOffset w (a / 3 % w) (a / 3 / w) + a % 3 = a := by
      rw [pixOffset, Nat.div_add_mod', Nat.div_add_mod]
    obtain ⟨hr, hg, hb⟩ := readPix_eq_some.mp (hm.holds _ hx _ hy)
    obtain ⟨hr₀, hg₀, hb₀⟩ := readPix_eq_some.mp (h₀ _ hx _ hy)
    obtain h3 | h3 | h3 : a % 3 = 0 ∨ a % 3 = 1 ∨ a % 3 = 2 := by omega
    all_goals rw [h3] at hoff
    · rw [← hoff, Nat.add_zero, hr, hr₀]
    · rw [← hoff, hg, hg₀]
    · rw [← hoff, hb, hb₀]
  · exact hm.outside a ha

end

/-! ### What a dither is -/

/-- The instruction `i` is the pass on memory that spreads `shares` of each pixel's error: to pixels of the frame, to later ones only, and nothing of no error (R160, R173, R174). -/
structure IsDither (i : Instr) (shares : ErrorShares) : Prop where
  exec_eq : ∀ s, exec i s = orUnwritten (ditherPass Config.epd6 s.palette shares s.frameRam) s
    fun m => complete .ok { s with frameRam := m }
  inside : ∀ x y old q, ∀ n ∈ shares x y old q, n.x < 800 ∧ n.y < 480
  after : ∀ x y old q, ∀ n ∈ shares x y old q, n.After x y
  zero : ∀ x y q, ∀ n ∈ shares x y q q, n.v = ⟨0, 0, 0⟩

theorem isDither_fs : IsDither .ditherFs (fsShares Config.epd6) where
  exec_eq _ := rfl
  inside _ _ _ _ := fsShares_in
  after _ _ _ _ _ hn := (fsShares_mem hn).1
  zero _ _ _ _ hn := by
    obtain ⟨-, w, hv⟩ := fsShares_mem hn
    simpa using hv

theorem isDither_atk : IsDither .ditherAtk (atkShares Config.epd6) where
  exec_eq _ := rfl
  inside _ _ _ _ := atkShares_in
  after _ _ _ _ _ hn := (atkShares_mem hn).1
  zero _ _ _ _ hn := by
    obtain ⟨-, hv⟩ := atkShares_mem hn
    simpa using hv

/-- A dither of a written frame completes with the raster of the pass in FRAME_RAM. -/
theorem IsDither.completes {i : Instr} {shares : ErrorShares} {s : State} {f : Raster} (hi : IsDither i shares)
    (hf : HoldsRaster s.frameRam 800 480 f) :
    ∃ m, exec i s = .next { completed .ok s with frameRam := m }
      ∧ HoldsOver 800 480 s.frameRam m (passRaster Config.epd6 (visitRaster s.palette shares) f) := by
  obtain ⟨m, hm, hover⟩ := ditherPass_holdsOver (c := Config.epd6) (p := s.palette) hi.inside ⟨hf, fun _ _ => rfl⟩
  exact ⟨m, by rw [hi.exec_eq, hm]; rfl, hover⟩

/-- Settles O23: the shares of DITHER_FS are the table of R165. -/
theorem ditherFsIsTheRasterPass : Obligations.DitherFsIsTheRasterPass := by
  intro s f hf
  obtain ⟨m, hexec, hover⟩ := isDither_fs.completes hf
  rw [fsVisitRaster_eq]
  exact ⟨_, hexec, hover.holds, hover.outside, rfl⟩

/-- Settles O24: the shares of DITHER_ATK are the table of R170 with the west edge of R171. -/
theorem ditherAtkIsTheRasterPass : Obligations.DitherAtkIsTheRasterPass := by
  intro s f hf
  obtain ⟨m, hexec, hover⟩ := isDither_atk.completes hf
  rw [atkVisitRaster_eq]
  exact ⟨_, hexec, hover.holds, hover.outside, rfl⟩

/-! ### Every pixel ends as a palette colour (R173) -/

/-- Every pixel before (x, y) in row-major order is a palette colour. -/
def QuantizedBefore (p : Palette) (w x y : Nat) (f : Raster) : Prop :=
  ∀ x' < w, ∀ y', y' < y ∨ y' = y ∧ x' < x → ∃ e ∈ paletteEntries p, f x' y' = e.rgb

/-- Diffusion changes only the pixels it goes to. -/
theorem foldl_addShare_apply {l : List Share} {f : Raster} {x y : Nat} (hl : ∀ n ∈ l, ¬(x = n.x ∧ y = n.y)) :
    l.foldl addShare f x y = f x y := by
  induction l generalizing f with
  | nil => rfl
  | cons n l ih =>
    rw [List.foldl_cons, ih fun k hk => hl k (List.mem_cons_of_mem _ hk), addShare, setAt,
      if_neg (hl n List.mem_cons_self)]

/-- A visit quantizes its pixel and changes no earlier one. -/
theorem QuantizedBefore.visit {p : Palette} {w x y : Nat} {f : Raster} {shares : ErrorShares}
    (hsh : ∀ old q, ∀ n ∈ shares x y old q, n.After x y) (hf : QuantizedBefore p w x y f) :
    QuantizedBefore p w (x + 1) y (visitRaster p shares x y f) := by
  intro x' hx' y' hbefore
  have hkept : visitRaster p shares x y f x' y' = setAt f x y (nearest p (f x y)).rgb x' y' := by
    refine foldl_addShare_apply fun n hn he => ?_
    have hafter : y < n.y ∨ n.y = y ∧ x < n.x := hsh _ _ n hn
    omega
  rw [hkept, setAt]
  split
  · exact ⟨_, nearest_mem p (f x y), rfl⟩
  · exact hf x' hx' y' (by omega)

/-- A pass that spreads to later pixels only leaves a palette colour at every pixel. -/
theorem passRaster_quantized {c : Config} {p : Palette} {shares : ErrorShares}
    (hsh : ∀ x y old q, ∀ n ∈ shares x y old q, n.After x y) (f : Raster) :
    QuantizedBefore p c.W 0 c.H (passRaster c (visitRaster p shares) f) := by
  refine foldl_range_invariant (QuantizedBefore p c.W 0) (fun y g _ hg => ?_) fun _ _ _ h => by omega
  have hrow : QuantizedBefore p c.W c.W y ((List.range c.W).foldl (fun g x => visitRaster p shares x y g) g) :=
    foldl_range_invariant (fun x => QuantizedBefore p c.W x y) (fun x _ _ hu => hu.visit (hsh x y)) hg
  exact fun x' hx' y' h => hrow x' hx' y' (by omega)

/-- A written frame holds a raster. -/
theorem exists_holdsRaster {m : Mem} {w h : Nat} (hm : AllWritten m (3 * w * h)) : ∃ f, HoldsRaster m w h f := by
  refine ⟨fun x y => (readPix m w x y).getD default, fun x hx y hy => ?_⟩
  obtain ⟨q, hq⟩ := Option.ne_none_iff_exists'.mp (readable_of_allWritten hm x hx y hy)
  simp only [hq, Option.getD_some]

theorem mem_colours {p : Palette} {q : Rgb} : q ∈ p.colours ↔ ∃ e ∈ paletteEntries p, e.rgb = q :=
  List.mem_map (f := PalEntry.rgb) (l := paletteEntries p)

theorem IsDither.quantizes {i : Instr} {shares : ErrorShares} {s : State} (hi : IsDither i shares)
    (hs : AllWritten s.frameRam 1152000) :
    ∃ t, exec i s = .next t ∧ ∀ x < 800, ∀ y < 480, ∃ c, readPix t.frameRam 800 x y = some c
      ∧ c ∈ s.palette.colours ∧ (nearest s.palette c).rgb = c := by
  obtain ⟨f, hf⟩ := exists_holdsRaster (w := 800) (h := 480) hs
  obtain ⟨m, hexec, hover⟩ := hi.completes hf
  refine ⟨_, hexec, fun x hx y hy => ⟨_, hover.holds x hx y hy, ?_⟩⟩
  obtain ⟨e, he, heq⟩ := passRaster_quantized (c := Config.epd6) (p := s.palette) hi.after f x hx y (.inl hy)
  rw [heq]
  exact ⟨mem_colours.mpr ⟨e, he, rfl⟩, nearest_rgb_of_mem he⟩

/-- Settles O25: a visit quantizes its pixel, and diffusion goes to later pixels only. -/
theorem ditheredFrameIsPaletteColours : Obligations.DitheredFrameIsPaletteColours := by
  intro s hs i hi
  simp only [List.mem_cons, List.not_mem_nil, or_false] at hi
  obtain rfl | rfl := hi
  · exact isDither_fs.quantizes hs
  · exact isDither_atk.quantizes hs

/-! ### Palette frames are fixed (R174) -/

@[simp] theorem setAt_self (f : Raster) (x y : Nat) : setAt f x y (f x y) = f := by
  funext x' y'
  rw [setAt]
  split
  · next he =>
    obtain ⟨rfl, rfl⟩ := he
    rfl
  · rfl

theorem foldl_addShare_zero {l : List Share} (hl : ∀ n ∈ l, n.v = ⟨0, 0, 0⟩) (f : Raster) : l.foldl addShare f = f := by
  induction l with
  | nil => rfl
  | cons n l ih =>
    rw [List.foldl_cons, addShare, hl n List.mem_cons_self, addSat_zero, setAt_self]
    exact ih fun k hk => hl k (List.mem_cons_of_mem _ hk)

/-- A visit of a palette colour has no error to spread. -/
theorem visitRaster_of_palette {p : Palette} {x y : Nat} {f : Raster} {shares : ErrorShares}
    (hsh : ∀ q, ∀ n ∈ shares x y q q, n.v = ⟨0, 0, 0⟩) (hf : f x y ∈ p.colours) : visitRaster p shares x y f = f := by
  obtain ⟨e, he, heq⟩ := mem_colours.mp hf
  have hq : (nearest p (f x y)).rgb = f x y := heq ▸ nearest_rgb_of_mem he
  rw [visitRaster, hq, setAt_self, foldl_addShare_zero (hsh _)]

theorem passRaster_of_fixed {c : Config} {v : Nat → Nat → Raster → Raster} {f : Raster}
    (hv : ∀ x < c.W, ∀ y < c.H, v x y f = f) : passRaster c v f = f := by
  refine foldl_range_invariant (fun _ g => g = f) (fun y g hy hg => ?_) rfl
  refine foldl_range_invariant (fun _ g => g = f) (fun x g hx hg => ?_) hg
  rw [hg, hv x hx y hy]

theorem IsDither.fixes {i : Instr} {shares : ErrorShares} {s : State} {f : Raster}
    (hi : IsDither i shares) (hf : HoldsRaster s.frameRam 800 480 f)
    (hpal : ∀ x < 800, ∀ y < 480, f x y ∈ s.palette.colours) :
    ∃ t, exec i s = .next t ∧ ∀ a, readByte t.frameRam a = readByte s.frameRam a := by
  obtain ⟨m, hexec, hover⟩ := hi.completes hf
  rw [passRaster_of_fixed fun x hx y hy => visitRaster_of_palette (hi.zero x y) (hpal x hx y hy)] at hover
  exact ⟨_, hexec, hover.readByte_eq hf⟩

/-- Settles O26: each visit finds a palette colour, so the pass leaves the raster, and the raster fixes the frame's bytes. -/
theorem ditherFixesPaletteFrame : Obligations.DitherFixesPaletteFrame := by
  intro s f hf hpal
  obtain ⟨t, ht, htb⟩ := isDither_fs.fixes hf hpal
  obtain ⟨u, hu, hub⟩ := isDither_atk.fixes hf hpal
  exact ⟨t, u, ht, hu, htb, hub⟩

end Sys2Proof.Machine
end

section
/-! SUPPORT. For the settling of O31 and O32: what PACK's loop leaves in PACK_RAM over a written frame, and that the two nibbles of a packed byte read back. -/

namespace Sys2Proof.Machine

/-! ### A byte of two identifiers (30_encoding.md R96, 43_packer.md R194) -/

theorem toNat_nibbles (hi lo : PalId) : (nibbles hi lo).toNat = 16 * hi.toNat + lo.toNat := by
  rw [nibbles, BitVec.toNat_append, ← Nat.shiftLeft_add_eq_or_of_lt lo.isLt, Nat.shiftLeft_eq, mul_comm]

theorem nibbles_eq_ofNat (hi lo : PalId) : nibbles hi lo = BitVec.ofNat 8 (16 * hi.toNat + lo.toNat) := by
  rw [← toNat_nibbles, BitVec.ofNat_toNat, BitVec.setWidth_eq]

@[simp] theorem unpackByte_nibbles (hi lo : PalId) : unpackByte (nibbles hi lo) = [hi, lo] := by
  rw [unpackByte, nibbles, BitVec.extractLsb'_append_eq_left, BitVec.extractLsb'_append_eq_right]

/-! ### The packed buffer (43_packer.md R191 to R193) -/

/-- The identifier of the pixel of flattened index `i` in a raster of width `w` (R190, 00_scope.md R10). -/
def flatId (w : Nat) (p : Palette) (f : Raster) (i : Nat) : PalId := pid p (f (i % w) (i / w))

/-- Byte `k` of the packed raster (R191). -/
def packedByte (w : Nat) (p : Palette) (f : Raster) (k : Nat) : Byte :=
  nibbles (flatId w p f (2 * k)) (flatId w p f (2 * k + 1))

/-- The first `n` bytes of the packed raster stand in `m`, and every later byte is `m₀`'s. -/
structure PackedTo (w : Nat) (p : Palette) (f : Raster) (m₀ : Mem) (n : Nat) (m : Mem) : Prop where
  bytes : ∀ k < n, readByte m k = some (packedByte w p f k)
  outside : ∀ a, n ≤ a → readByte m a = readByte m₀ a

section

variable {w n : Nat} {p : Palette} {f : Raster} {m₀ m : Mem}

theorem packedTo_zero : PackedTo w p f m₀ 0 m₀ :=
  ⟨fun _ hlt => absurd hlt (Nat.not_lt_zero _), fun _ _ => rfl⟩

/-- Writing the next byte packs one byte more. -/
theorem PackedTo.succ (hm : PackedTo w p f m₀ n m) :
    PackedTo w p f m₀ (n + 1) (writeByte m n (packedByte w p f n)) where
  bytes k hk := by
    obtain hlt | rfl := Nat.lt_succ_iff_lt_or_eq.mp hk
    · rw [readByte_writeByte_other _ _ hlt.ne]
      exact hm.bytes k hlt
    · exact readByte_writeByte_same ..
  outside a ha := by
    rw [readByte_writeByte_other _ _ (by omega)]
    exact hm.outside a (by omega)

end

section

variable {c : Config} {p : Palette} {f : Raster} {frame : Mem}

theorem flatPix_of_holdsRaster {i : Nat} (hf : HoldsRaster frame c.W c.H f) (hi : i < c.W * c.H) :
    flatPix c frame i = some (f (i % c.W) (i / c.W)) :=
  hf _ (Nat.mod_lt _ (Nat.pos_of_lt_mul_right hi)) _ (Nat.div_lt_of_lt_mul hi)

theorem packByte_of_holdsRaster {k : Nat} (hf : HoldsRaster frame c.W c.H f) (hk : k < packSize c) (out : Mem) :
    packByte c p frame k out = some (writeByte out k (packedByte c.W p f k)) := by
  rw [packSize] at hk
  rw [packByte, flatPix_of_holdsRaster hf (by omega), flatPix_of_holdsRaster hf (by omega)]
  rfl

/-- PACK's loop over a written frame answers with the packed raster. -/
theorem packLoop_total (hf : HoldsRaster frame c.W c.H f) (m₀ : Mem) :
    ∃ m, loop (packByte c p frame) (packSize c) 0 m₀ = some m ∧ PackedTo c.W p f m₀ (packSize c) m := by
  have h := loop_total (body := packByte c p frame) (n := packSize c) (PackedTo c.W p f m₀)
    (fun k u _ hk hu => ⟨_, packByte_of_holdsRaster hf (by omega) u, hu.succ⟩) packedTo_zero
  rwa [Nat.zero_add] at h

end

/-- PACK of a written frame completes with the packed frame in PACK_RAM (R192, R193). -/
theorem exec_pack_packs {s : State} {f : Raster} (hf : HoldsRaster s.frameRam 800 480 f) :
    ∃ m, exec .pack s = .next { completed .ok s with packRam := m }
      ∧ PackedTo 800 s.palette f s.packRam 192000 m := by
  obtain ⟨m, hm, hpacked⟩ := packLoop_total (c := Config.epd6) (p := s.palette) hf s.packRam
  exact ⟨m, by rw [exec_pack, hm]; rfl, hpacked⟩

/-- Settles O31: step `k` of the loop writes byte `k`, and no step writes past the buffer. -/
theorem packWritesIdentifierPairs : Obligations.PackWritesIdentifierPairs := by
  intro s f hf
  obtain ⟨m, hexec, hpacked⟩ := exec_pack_packs hf
  refine ⟨_, hexec, fun k hk => ?_, hpacked.outside, rfl⟩
  exact (hpacked.bytes k hk).trans (congrArg some (nibbles_eq_ofNat _ _))

/-! ### Unpacking (43_packer.md R194) -/

/-- Two entries for each `k < n`, those of indices `2k` and `2k + 1`, are the first `2n` entries in order. -/
theorem flatMap_range_pairs {α : Type} (g : Nat → α) (n : Nat) :
    ((List.range n).flatMap fun k => [g (2 * k), g (2 * k + 1)]) = (List.range (2 * n)).map g := by
  induction n with
  | zero => rfl
  | succ n ih => simp [Nat.mul_succ, List.range_succ, ih]

/-- The bytes read from a packed memory are the packed bytes in order. -/
theorem PackedTo.filterMap_readByte {w n : Nat} {p : Palette} {f : Raster} {m₀ m : Mem}
    (hm : PackedTo w p f m₀ n m) :
    (List.range n).filterMap (readByte m) = (List.range n).map (packedByte w p f) := by
  rw [← List.filterMap_eq_map]
  exact List.filterMap_congr fun k hk => hm.bytes k (List.mem_range.mp hk)

theorem unpack_map_packedByte (w : Nat) (p : Palette) (f : Raster) (n : Nat) :
    unpack ((List.range n).map (packedByte w p f)) = (List.range (2 * n)).map (flatId w p f) := by
  simp only [unpack, List.flatMap_map, packedByte, unpackByte_nibbles, flatMap_range_pairs]

/-- Settles O32: each byte unpacks to the two identifiers packed in it, and the pairs in byte order are the pixels in row-major order. -/
theorem unpackRecoversIdentifiers : Obligations.UnpackRecoversIdentifiers := by
  intro s f hf
  obtain ⟨m, hexec, hpacked⟩ := exec_pack_packs hf
  exact ⟨_, hexec, (congrArg unpack hpacked.filterMap_readByte).trans (unpack_map_packedByte 800 s.palette f 192000)⟩

end Sys2Proof.Machine
end

section
/-! SUPPORT. For the settling of O44 to O47: a core left alone does the operation at its script's head, and each event has the effects of its outcomes. -/

namespace Sys2Proof.Machine

variable {c : Config} {s : State} {op : Op} {rest : List Op}

/-! ### The operation at the script's head (10_state.md R34) -/

theorem stepWith_op {ex : Exec} (hr : s.run = true) (hq : s.hostQ = []) (hs : s.script = op :: rest)
    (hop : ∀ k, op ≠ .instr k) : stepWith c ex s = .next (microStep c op { s with script := rest }) := by
  rw [stepWith_alone hq, coreStep_op hr hs hop]

theorem step_op (hr : s.run = true) (hq : s.hostQ = []) (hs : s.script = op :: rest) (hop : ∀ k, op ≠ .instr k) :
    step s = .next (microStep Config.epd6 op { s with script := rest }) :=
  stepWith_op hr hq hs hop

/-! ### The two outcomes of an event (44_panel_protocol.md R203 to R207, R211) -/

/-- An abort acts as R211 says, whatever was left of the script. -/
theorem abortsWith_abort (e : Err) (s : State) (ops : List Op) : AbortsWith e s (abort e { s with script := ops }) := by
  by_cases h : s.cmd = some .closeSession
  · rw [AbortsWith, if_pos h]
    exact abort_of_close (s := { s with script := ops }) h
  · rw [AbortsWith, if_neg h]
    exact abort_of_ne_close (s := { s with script := ops }) h

/-- `Set(l, v)` in a script with outcome `err`, the level of its latch written out. -/
theorem setLine_err_eq {l : Line} {v : Bool} (h : c.ack s.draws = .err) :
    setLine c l v s =
      abort .busError (emit (.set l v .err) (setLatch l (if c.latchTaken s.draws then v else latch s l) s)) := by
  rw [setLine, h, orBusError_err, driveLine_err h]

/-- `Set(l, v)` in a script. -/
theorem setLine_outcomes (c : Config) (l : Line) (v : Bool) (s : State) (ops : List Op) :
    (c.ack s.draws = .ok → setLine c l v { s with script := ops } =
      { setLatch l v s with trace := .set l v .ok :: s.trace, draws := s.draws + 1, script := ops })
    ∧ (c.ack s.draws = .err →
      AbortsWith .busError
        { setLatch l (if c.latchTaken s.draws then v else latch s l) s with
          trace := .set l v .err :: s.trace, draws := s.draws + 1 }
        (setLine c l v { s with script := ops })) := by
  refine ⟨fun h => ?_, fun h => ?_⟩
  · cases l <;> exact setLine_ok (s := { s with script := ops }) h
  · rw [setLine_err_eq (s := { s with script := ops }) h]
    cases l <;> exact abortsWith_abort _ _ ops

/-- `SendData(b)` begins with `Set(DC, 1)` (R207). -/
theorem startsData_sendData (b : Byte) (after : List Op) (s : State) (ops : List Op) :
    StartsData b (after ++ ops) s (sendData Config.epd6 b after { s with script := ops }) :=
  setLine_outcomes Config.epd6 .dc true s (.xfer b :: (after ++ ops))

/-- `WriteReg(b, p)` begins with `Set(DC, 0)` (R206, R208). -/
theorem startsWrite_writeReg (b : Byte) (p : List Byte) (after : List Op) (s : State) :
    StartsWrite b p after s (writeReg Config.epd6 b p after s) :=
  setLine_outcomes Config.epd6 .dc false s (.xfer b :: (dataOps p ++ after ++ s.script.tail))

theorem fillOps_append (b : Byte) (n : Nat) (ops : List Op) :
    fillOps b n ++ ops = if n = 0 then ops else .fill b n :: ops := by
  unfold fillOps
  split <;> rfl

theorem streamOps_append (k n : Nat) (ops : List Op) :
    streamOps k n ++ ops = if n = 0 then ops else .stream k n :: ops := by
  unfold streamOps
  split <;> rfl

theorem microStep_stream {k n : Nat} {b : Byte} (h : readByte s.packRam k = some b) :
    microStep c (.stream k (n + 1)) s = sendData c b (streamOps (k + 1) n) s := by
  simp [microStep, h]

/-- Settles O44: each operation acts by its event's outcome. -/
theorem lineAndBusEventsAct : Obligations.LineAndBusEventsAct := by
  intro s rest hr hq
  refine ⟨fun hs => ?acq, fun l v hs => ?set, fun b hs => ?xfer, fun b n hs => ?fill, fun k n b hs hb => ?stream⟩
  case acq =>
    refine ⟨_, step_op hr hq hs (by simp), fun h => acquire_ok h, fun h => ?_⟩
    rw [microStep, acquire_err (s := { s with script := rest }) h]
    exact abortsWith_abort _ _ rest
  case set => exact ⟨_, step_op hr hq hs (by simp), setLine_outcomes Config.epd6 l v s rest⟩
  case xfer =>
    refine ⟨_, step_op hr hq hs (by simp), fun h => transfer_ok h, fun h => ?_⟩
    rw [microStep, transfer_err (s := { s with script := rest }) h]
    exact abortsWith_abort _ _ rest
  case fill =>
    rw [← fillOps_append]
    exact ⟨_, step_op hr hq hs (by simp), startsData_sendData b _ s rest⟩
  case stream =>
    rw [← streamOps_append]
    refine ⟨_, step_op hr hq hs (by simp), ?_⟩
    rw [microStep_stream (s := { s with script := rest }) hb]
    exact startsData_sendData b _ s rest

/-! ### Holds and the busy-wait (R200, R209) -/

/-- Settles O45: the time passed is `n` and a draw. -/
theorem holdLastsAtLeastItsTime : Obligations.HoldLastsAtLeastItsTime := by
  intro s n rest hr hq hs
  exact ⟨_, step_op hr hq hs (by simp), Nat.le_add_right _ _, rfl⟩

/-- At this hardware's poll interval of 1 ms, `n_poll` is the bound in milliseconds (00_scope.md R6). -/
theorem nPoll_epd6 : nPoll Config.epd6 = Config.epd6.busyTimeoutMs := by
  rw [nPoll, show Config.epd6.pollMs = 1 from rfl, Nat.div_one, Nat.add_sub_cancel]

/-- Settles O46: the sample's answer decides, and before the bound a hold and the next sample follow. -/
theorem busyWaitPollsUntilIdle : Obligations.BusyWaitPollsUntilIdle := by
  intro s k rest hr hq
  rw [← nPoll_epd6]
  refine ⟨fun hs => ⟨_, step_op hr hq hs (by simp), fun h => ?failed, fun v h hv => ?idle, fun v h hv hk => ?timeout,
    fun v h hv hk => ?again⟩, fun hs => ⟨_, step_op hr hq hs (by simp), Nat.le_add_right _ _, rfl⟩⟩
  case failed =>
    rw [microStep, pollBusy_err (s := { s with script := rest }) h]
    exact abortsWith_abort _ _ rest
  case idle =>
    subst hv
    exact pollBusy_idle h
  case timeout =>
    subst hk
    rw [microStep, pollBusy_timeout (s := { s with script := rest }) h hv]
    exact abortsWith_abort _ _ rest
  case again => exact pollBusy_again h hv hk

/-! ### The release tail (R203, R204) -/

/-- `Set(l, v)` leaves `v` in its latch after `ok`, and the old level or `v` whatever the outcome. -/
theorem driveLine_level (c : Config) (l : Line) (v : Bool) (s : State) :
    ∃ u, driveLine c l v s = emit (.set l v (c.ack s.draws)) (setLatch l u s)
      ∧ (c.ack s.draws = .ok → u = v) ∧ (u = latch s l ∨ u = v) := by
  rcases ack_cases (c.ack s.draws) with h | h
  · exact ⟨v, by rw [driveLine_ok h, h], fun _ => rfl, .inr rfl⟩
  · refine ⟨_, by rw [driveLine_err h, h], by simp [h], ?_⟩
    split
    · exact .inr rfl
    · exact .inl rfl

/-- A line of the release is driven to 0 and the tail goes on, whatever the outcome. -/
theorem step_relSet {l : Line} (hr : s.run = true) (hq : s.hostQ = []) (hs : s.script = .relSet l :: rest) :
    ∃ u a, step s = .next
        { setLatch l u s with trace := .set l false a :: s.trace, draws := s.draws + 1, script := rest }
      ∧ (a = .ok → u = false) ∧ (u = latch s l ∨ u = false) := by
  obtain ⟨u, hu, hok, hold⟩ := driveLine_level Config.epd6 l false { s with script := rest }
  refine ⟨u, _, ?_, hok, by cases l <;> exact hold⟩
  rw [step_op hr hq hs (by simp), microStep, hu]
  cases l <;> rfl

/-- The tail's end releases the lines and completes the command. -/
theorem runSteps_rel_finish {x : Sess} {e : Err} (hr : s.run = true) (hq : s.hostQ = [])
    (hs : s.script = [.rel, .finish x e]) : runSteps step 2 s = .next (finish x e (release s)) :=
  (runSteps_next (step_op hr hq hs (by simp))).trans
    (runSteps_next (step_op (s := release { s with script := [.finish x e] }) hr hq rfl (by simp)))

/-- Settles O47: no step of the tail depends on an outcome. -/
theorem releaseTailAlwaysCloses : Obligations.ReleaseTailAlwaysCloses := by
  intro s e hr hq hs
  obtain ⟨rst, a1, h1, hok1, hold1⟩ := step_relSet hr hq hs
  obtain ⟨dc, a2, h2, hok2, hold2⟩ := step_relSet (s := { s with
    rst := rst, trace := .set .rst false a1 :: s.trace, draws := s.draws + 1
    script := [.relSet .dc, .relSet .pwr, .rel, .finish .closed e] }) hr hq rfl
  obtain ⟨pwr, a3, h3, hok3, hold3⟩ := step_relSet (s := { s with
    rst := rst, dc := dc, trace := .set .dc false a2 :: .set .rst false a1 :: s.trace, draws := s.draws + 2
    script := [.relSet .pwr, .rel, .finish .closed e] }) hr hq rfl
  have hrun := (runSteps_next h1).trans ((runSteps_next h2).trans ((runSteps_next h3).trans
    (runSteps_rel_finish hr hq rfl)))
  exact ⟨_, a1, a2, a3, hrun, rfl, hok1, hok2, hok3, hold1, hold2, hold3, rfl⟩

end Sys2Proof.Machine
end

section
/-! SUPPORT. For the settling of O40 to O43 and O52: the register write of every panel command byte, its run on the bus, and a busy-wait that never ends. -/

namespace Sys2Proof.Machine

variable {c : Config} {s : State} {rest : List Op}

/-! ### The panel command bytes (44_panel_protocol.md R212 to R230) -/

/-- Byte `b`, other than 0x10, is sent with the data bytes `p` and then `after`. -/
abbrev RegisterWrite (c : Config) (b : Byte) (p : List Byte) (after : List Op) : Prop :=
  (b ∈ initBytes ∧ p = c.initPayload b ∧ after = [])
  ∨ (b ∈ ([0x04, 0x12, 0x02] : List Byte) ∧ p = c.extraPayload b ∧ after = [.busyWait 0])
  ∨ (b = 0x07 ∧ p = [0xA5] ∧ after = [])

theorem execWith_initByte {i : Instr} {b : Byte} (hi : encode i = .panel b) (hb : b ∈ initBytes) (s : State) :
    execWith c i s = .next (writeReg c b (c.initPayload b) [] s) := by
  cases i <;> cases hi
  case panelPowerOn | panelWriteRam | panelDisplayRefresh | panelPowerOff | panelDeepSleep =>
    exact absurd hb (by decide)
  all_goals rfl

theorem execWith_waitingByte {i : Instr} {b : Byte} (hi : encode i = .panel b)
    (hb : b ∈ ([0x04, 0x12, 0x02] : List Byte)) (s : State) :
    execWith c i s = .next (writeReg c b (c.extraPayload b) [.busyWait 0] s) := by
  cases i <;> cases hi
  case panelPowerOn | panelDisplayRefresh | panelPowerOff => rfl
  all_goals exact absurd hb (by decide)

/-- The meaning of a byte other than 0x10 is its register write. -/
theorem execWith_registerWrite {i : Instr} {b : Byte} {p : List Byte} {after : List Op} (hi : encode i = .panel b)
    (hw : RegisterWrite c b p after) (s : State) : execWith c i s = .next (writeReg c b p after s) := by
  obtain ⟨hb, rfl, rfl⟩ | ⟨hb, rfl, rfl⟩ | ⟨rfl, rfl, rfl⟩ := hw
  · exact execWith_initByte hi hb s
  · exact execWith_waitingByte hi hb s
  · cases i <;> cases hi
    rfl

/-- The sequencer has an instruction for each of the eighteen bytes (30_encoding.md R104). -/
theorem decodePanel_of_mem {b : Byte} (hb : b ∈ panelBytes) : ∃ i, decodePanel b = .ok i := by
  fin_cases hb <;> exact ⟨_, rfl⟩

theorem RegisterWrite.mem_panelBytes {b : Byte} {p : List Byte} {after : List Op} (hw : RegisterWrite c b p after) :
    b ∈ panelBytes := by
  have hmem : ∀ b ∈ initBytes ++ [0x04, 0x12, 0x02, 0x07], b ∈ panelBytes := by decide
  obtain ⟨hb, -⟩ | ⟨hb, -⟩ | ⟨rfl, -⟩ := hw
  · exact hmem b (List.mem_append_left _ hb)
  · exact hmem b (List.mem_append_right _ (List.mem_append_left [0x07] hb))
  · decide

theorem exec_startsWrite {i : Instr} {b : Byte} {p : List Byte} {after : List Op} (hi : encode i = .panel b)
    (hw : RegisterWrite Config.epd6 b p after) (s : State) :
    ∃ t, exec i s = .next t ∧ StartsWrite b p after s t :=
  ⟨_, (exec_eq_execWith i s).trans (execWith_registerWrite hi hw s), startsWrite_writeReg b p after s⟩

/-- Settles O40: the register writes of the init bytes and of deep-sleep. -/
theorem plainPanelBytesStartTheirWrite : Obligations.PlainPanelBytesStartTheirWrite := by
  refine fun s => ⟨fun p hp => ?_, exec_startsWrite rfl (.inr (.inr ⟨rfl, rfl, rfl⟩)) s⟩
  have hinit : encode p.1 = .panel p.2 ∧ p.2 ∈ initBytes := by
    revert p
    decide
  obtain ⟨hi, hb⟩ := hinit
  exact exec_startsWrite hi (.inl ⟨hb, rfl, rfl⟩) s

/-- Settles O41: the register writes of the three bytes with a busy-wait, whose payload R6 makes empty. -/
theorem waitingPanelBytesStartTheirWrite : Obligations.WaitingPanelBytesStartTheirWrite := by
  intro s p hp
  have hbusy : encode p.1 = .panel p.2 ∧ p.2 ∈ ([0x04, 0x12, 0x02] : List Byte) := by
    revert p
    decide
  obtain ⟨hi, hb⟩ := hbusy
  exact exec_startsWrite hi (.inr (.inl ⟨hb, rfl, rfl⟩)) s

/-- Settles O42: the data bytes after 0x10 are those of the command in progress. -/
theorem writeRamStartsItsStream : Obligations.WriteRamStartsItsStream := by
  refine fun s => ⟨fun id hc => ⟨_, rfl, ?_⟩, fun len hc hlen => ⟨_, rfl, ?_⟩⟩
  · rw [show ramPayload Config.epd6 s.cmd = [.fill (id ++ id) 192000] by rw [hc]; rfl]
    exact startsWrite_writeReg 0x10 [] _ s
  · have hpos : len.toNat ≠ 0 := fun h => hlen (BitVec.eq_of_toNat_eq h)
    rw [show ramPayload Config.epd6 s.cmd = [.stream 0 len.toNat] by
      rw [hc, ramPayload, commandPayload, streamOps, if_neg hpos]]
    exact startsWrite_writeReg 0x10 [] _ s

/-! ### Runs of a core left alone -/

theorem runWith_op {op : Op} {n : Nat} (hr : s.run = true) (hq : s.hostQ = []) (hs : s.script = op :: rest)
    (hop : ∀ k, op ≠ .instr k) : runWith c (n + 1) s = runWith c n (microStep c op { s with script := rest }) :=
  runSteps_next (stepWith_op hr hq hs hop)

theorem runWith_instr {k : Code} {i : Instr} {t : State} {n : Nat} (hr : s.run = true) (hq : s.hostQ = [])
    (hs : s.script = .instr k :: rest) (hd : decode k = .ok i) (hi : execWith c i s = .next t) :
    runWith c (n + 1) s = runWith c n t :=
  runSteps_next (by rw [stepWith_alone hq, coreStep_instr hr hs hd, hi])

theorem runWith_hold {n ms : Nat} (hr : s.run = true) (hq : s.hostQ = []) (hs : s.script = .hold ms :: rest) :
    runWith c (n + 1) s = runWith c n { s with
      time := s.time + ms + c.holdExtra s.draws, trace := .hold ms :: s.trace, draws := s.draws + 1
      script := rest } :=
  runWith_op hr hq hs (by simp)

/-! ### Runs in which every event is `ok` -/

section
variable (hok : ∀ n, c.ack n = .ok)
include hok

theorem runWith_acq_ok {n : Nat} (hr : s.run = true) (hq : s.hostQ = []) (hs : s.script = .acq :: rest) :
    runWith c (n + 1) s = runWith c n { s with
      own := true, trace := .acq .ok :: s.trace, draws := s.draws + 1, script := rest } := by
  rw [runWith_op hr hq hs (by simp), microStep, acquire_ok (hok _)]
  rfl

theorem runWith_set_ok {n : Nat} {l : Line} {v : Bool} (hr : s.run = true) (hq : s.hostQ = [])
    (hs : s.script = .set l v :: rest) :
    runWith c (n + 1) s = runWith c n { setLatch l v s with
      trace := .set l v .ok :: s.trace, draws := s.draws + 1, script := rest } := by
  rw [runWith_op hr hq hs (by simp), microStep, (setLine_outcomes c l v s rest).1 (hok _)]

theorem runWith_xfer_ok {n : Nat} {b : Byte} (hr : s.run = true) (hq : s.hostQ = []) (hs : s.script = .xfer b :: rest) :
    runWith c (n + 1) s = runWith c n { s with
      trace := .xfer s.dc b .ok :: s.trace, draws := s.draws + 1, script := rest } := by
  rw [runWith_op hr hq hs (by simp), microStep, transfer_ok (hok _)]
  rfl

/-! ### Register writes on the bus (R206 to R208) -/

/-- `SendData` of each byte: two events a byte, with DC at 1. -/
theorem runWith_dataOps (p : List Byte) (hr : s.run = true) (hq : s.hostQ = []) (hs : s.script = dataOps p ++ rest) :
    runWith c (2 * p.length) s = .next { s with
      dc := s.dc || !p.isEmpty, trace := (dataEvents p).reverse ++ s.trace, draws := s.draws + 2 * p.length
      script := rest } := by
  induction p generalizing s with
  | nil =>
    have hrest : s.script = rest := hs
    simp [runWith, runSteps, dataEvents, ← hrest]
  | cons d p ih =>
    have hops : s.script = .set .dc true :: .xfer d :: (dataOps p ++ rest) := hs
    refine (runWith_set_ok hok hr hq hops).trans (Eq.trans (runWith_xfer_ok hok hr hq rfl) (Eq.trans (ih hr hq rfl) ?_))
    simp [dataEvents, setLatch]
    omega

/-- The whole register write of a byte other than 0x10. -/
theorem runWith_registerWrite {b : Byte} {p : List Byte} {after : List Op} (hw : RegisterWrite c b p after)
    (hr : s.run = true) (hq : s.hostQ = []) (hs : s.script = .instr (.panel b) :: rest) :
    runWith c (2 + 2 * p.length) s = .next { s with
      dc := !p.isEmpty, trace := (writeEvents b p).reverse ++ s.trace, draws := s.draws + (2 + 2 * p.length)
      script := after ++ rest } := by
  obtain ⟨i, hd⟩ := decodePanel_of_mem hw.mem_panelBytes
  have hstart := execWith_registerWrite (encode_of_decodePanel hd) hw s
  rw [writeReg, (setLine_outcomes c .dc false s _).1 (hok _)] at hstart
  rw [Nat.add_comm 2, runWith_instr hr hq hs hd hstart]
  refine Eq.trans (runWith_xfer_ok hok hr hq rfl)
    (Eq.trans (runWith_dataOps hok p (rest := after ++ rest) hr hq ?_) ?_)
  · simp [hs]
  · simp [writeEvents, setLatch]
    omega

end

/-- Settles O43: the register write's run, whose last event leaves DC at 0 only when no data byte follows. -/
theorem registerWriteReachesTheBus : Obligations.RegisterWriteReachesTheBus := by
  rintro c s b p after rest ⟨hok, -⟩ hr hq hs hw
  exact ⟨_, runWith_registerWrite hok hw hr hq hs, rfl, by simp⟩

/-! ### A busy-wait that never reads idle (R209) -/

/-- The events of a busy-wait that reads busy in `m + 1` samples. -/
def busyEvents (c : Config) (m : Nat) : List Event :=
  (List.replicate m [Event.sample (some (!c.busyIdleLevel)), .hold c.pollMs]).flatten
    ++ [.sample (some (!c.busyIdleLevel))]

theorem stuckEvents_eq (c : Config) : stuckEvents c = busyEvents c (nPoll c) := rfl

theorem busyEvents_succ (c : Config) (m : Nat) :
    busyEvents c (m + 1) = .sample (some (!c.busyIdleLevel)) :: .hold c.pollMs :: busyEvents c m := rfl

theorem length_busyEvents (c : Config) (m : Nat) : (busyEvents c m).length = 2 * m + 1 := by
  induction m with
  | zero => rfl
  | succ m ih =>
    rw [busyEvents_succ, List.length_cons, List.length_cons, ih]
    omega

theorem busBytes_append (l₁ l₂ : List Event) : busBytes (l₁ ++ l₂) = busBytes l₁ ++ busBytes l₂ :=
  List.filterMap_append

theorem busBytes_reverse (l : List Event) : busBytes l.reverse = (busBytes l).reverse :=
  List.filterMap_reverse

/-- No byte is sent while the panel is woken and waited for. -/
theorem busBytes_busyEvents (c : Config) (m : Nat) : busBytes (busyEvents c m) = [] := by
  induction m with
  | zero => rfl
  | succ m ih => exact ih

theorem busBytes_wakeEvents (c : Config) : busBytes (wakeEvents c) = [] := rfl

/-- `m` intervals before the bound the wait takes `m + 1` more samples, `m` more holds, and ends the command in FAILED with DeviceTimeout. -/
theorem runWith_stuckBusyWait (hbusy : ∀ n, c.sample n = some (!c.busyIdleLevel)) {m k : Nat} (hk : k + m = nPoll c)
    (hr : s.run = true) (hq : s.hostQ = []) (hs : s.script = .busyWait k :: rest) (hc : s.cmd ≠ some .closeSession) :
    ∃ time, runWith c (2 * m + 1) s = .next { completed .deviceTimeout s with
      sess := .failed, busyRaw := !c.busyIdleLevel, trace := (busyEvents c m).reverse ++ s.trace
      draws := s.draws + (2 * m + 1), time := time } := by
  have hne : (!c.busyIdleLevel) ≠ c.busyIdleLevel := by simp
  induction m generalizing s k with
  | zero =>
    obtain rfl : k = nPoll c := hk
    refine ⟨s.time, ?_⟩
    rw [runWith_op hr hq hs (by simp), microStep, pollBusy_timeout (hbusy _) hne]
    exact congrArg Host.Outcome.next (abort_of_ne_close hc)
  | succ m ih =>
    obtain ⟨time, ih⟩ := ih (k := k + 1) (s := { s with
      busyRaw := !c.busyIdleLevel, trace := .hold c.pollMs :: .sample (some (!c.busyIdleLevel)) :: s.trace
      draws := s.draws + 2, time := s.time + c.pollMs + c.holdExtra (s.draws + 1)
      script := .busyWait (k + 1) :: rest }) (by omega) hr hq rfl hc
    refine ⟨time, ?_⟩
    rw [Nat.mul_succ, Nat.add_right_comm, runWith_op hr hq hs (by simp), microStep,
      pollBusy_again (hbusy _) hne (by omega)]
    refine Eq.trans (runWith_op hr hq rfl (by simp)) (Eq.trans ih ?_)
    simp [busyEvents_succ]
    omega

/-! ### OPEN with BUSY never idle -/

section
variable (hok : ∀ n, c.ack n = .ok)
include hok

/-- A level of RST and its hold (R210). -/
theorem runWith_rstPulse {n ms : Nat} {v : Bool} (hr : s.run = true) (hq : s.hostQ = [])
    (hs : s.script = .set .rst v :: .hold ms :: rest) :
    runWith c (n + 2) s = runWith c n { s with
      rst := v, trace := .hold ms :: .set .rst v .ok :: s.trace, draws := s.draws + 2
      time := s.time + ms + c.holdExtra (s.draws + 1), script := rest } :=
  Eq.trans (runWith_set_ok hok hr hq hs) (runWith_hold hr hq rfl)

/-- OPEN's first events: the lines owned, PWR and RST at 1 (45_session.md R260). -/
theorem runWith_wake (hr : s.run = true) (hq : s.hostQ = [])
    (hs : s.script = [.acq, .set .pwr true] ++ resetSeq c ++ rest) :
    ∃ time, runWith c 8 s = .next { s with
      own := true, rst := true, pwr := true, trace := (wakeEvents c).reverse ++ s.trace, draws := s.draws + 8
      time := time, script := rest } := by
  exact ⟨_, Eq.trans (runWith_acq_ok hok hr hq hs) (Eq.trans (runWith_set_ok hok hr hq rfl)
    (Eq.trans (runWith_rstPulse hok hr hq rfl) (Eq.trans (runWith_rstPulse hok hr hq rfl)
      (runWith_rstPulse hok hr hq rfl))))⟩

end

/-- Settles O52: OPEN starts, wakes the panel, and waits for BUSY to the bound. -/
theorem stuckBusyTimesOut : Obligations.StuckBusyTimesOut := by
  rintro c s hok hbusy ⟨hr, hs, hq⟩ hx
  have hopen : execWith c .openSession s = .next (startCommand .openSession .opening (openScript c) s) := if_pos hx
  obtain ⟨awake, hwake⟩ := runWith_wake hok (s := startCommand .openSession .opening (openScript c) s)
    (rest := .busyWait 0 :: (initSeq ++ [.finish .idle .ok])) hr hq rfl
  obtain ⟨_, hwait⟩ := runWith_stuckBusyWait hbusy (m := nPoll c) (k := 0) (Nat.zero_add _) (s := { s with
    sess := .opening, cmd := some .openSession, own := true, rst := true, pwr := true
    trace := (wakeEvents c).reverse ++ s.trace, draws := s.draws + 8, time := awake
    script := .busyWait 0 :: (initSeq ++ [.finish .idle .ok]) }) hr hq rfl (by simp)
  have hstart : runWith c (10 + 2 * nPoll c) s =
      runWith c (8 + (2 * nPoll c + 1)) (startCommand .openSession .opening (openScript c) s) := by
    rw [show 10 + 2 * nPoll c = 8 + (2 * nPoll c + 1) + 1 by omega]
    exact runWith_instr hr hq hs rfl hopen
  refine ⟨_, hstart.trans ((runSteps_add hwake).trans hwait), ?_, ?_, ?_⟩
  · simp [stuckEvents_eq]
  · simp [length_busyEvents, wakeEvents]
    omega
  · simp [busBytes_append, busBytes_reverse, busBytes_wakeEvents, busBytes_busyEvents]

end Sys2Proof.Machine
end

section
/-! SUPPORT. For the settling of O56: where an operation, an instruction, the host and a step can take SESS. -/

namespace Sys2Proof.Machine

variable {c : Config} {s t : State}

/-! ### The moves of one operation (45_session.md R251) -/

/-- SESS stays or makes a transition of R251. -/
abbrev SessGoes (x y : Sess) : Prop := y = x ∨ (x, y) ∈ sessMoves

/-- An error ends a command in FAILED, from OPENING or BUSY, or leaves CLOSE its release tail. -/
theorem sessGoes_abort {e : Err} (ha : mayAbort s.cmd s.sess = true) : SessGoes s.sess (abort e s).sess := by
  have hstate : ∀ i x, abortState i = some x → (x, Sess.failed) ∈ sessMoves := by
    intro i x h
    cases i <;> cases h <;> decide
  by_cases hc : s.cmd = some .closeSession
  · exact .inl (by rw [abort_of_close hc])
  · rw [abort_of_ne_close hc]
    obtain ⟨i, -, hi⟩ := Option.bind_eq_some_iff.mp (of_decide_eq_true ha)
    exact .inr (hstate i s.sess hi)

theorem driveLine_sess (c : Config) (l : Line) (v : Bool) (s : State) : (driveLine c l v s).sess = s.sess := by
  obtain ⟨u, h⟩ := driveLine_form c l v s
  rw [h, emit_sess, setLatch_sess]

section
variable (ha : mayAbort s.cmd s.sess = true)
include ha

theorem sessGoes_setLine {l : Line} {v : Bool} : SessGoes s.sess (setLine c l v s).sess := by
  rcases ack_cases (c.ack s.draws) with h | h
  · exact .inl (by rw [setLine_ok h, emit_sess, setLatch_sess])
  · obtain ⟨u, h⟩ := setLine_err (l := l) (v := v) h
    rw [h]
    simpa using sessGoes_abort (e := .busError) (s := emit (.set l v .err) (setLatch l u s)) (by simpa using ha)

theorem sessGoes_transfer {b : Byte} : SessGoes s.sess (transfer c b s).sess := by
  rcases ack_cases (c.ack s.draws) with h | h
  · exact .inl (by rw [transfer_ok h, emit_sess])
  · rw [transfer_err h]
    exact sessGoes_abort (s := emit (.xfer s.dc b .err) s) ha

theorem sessGoes_acquire : SessGoes s.sess (acquire c s).sess := by
  rcases ack_cases (c.ack s.draws) with h | h
  · exact .inl (by rw [acquire_ok h, emit_sess])
  · rw [acquire_err h]
    exact sessGoes_abort (s := emit (.acq .err) s) ha

theorem sessGoes_pollBusy {k : Nat} : SessGoes s.sess (pollBusy c k s).sess := by
  cases h : c.sample s.draws with
  | none =>
    rw [pollBusy_err h]
    exact sessGoes_abort (s := emit (.sample none) s) ha
  | some v =>
    by_cases hv : v = c.busyIdleLevel
    · exact .inl (by rw [pollBusy_idle (hv ▸ h), emit_sess])
    · by_cases hk : k = nPoll c
      · rw [hk, pollBusy_timeout h hv]
        exact sessGoes_abort (s := { emit (.sample (some v)) s with busyRaw := v }) ha
      · exact .inl (by rw [pollBusy_again h hv hk, emit_sess])

theorem sessGoes_sendData {b : Byte} {after : List Op} : SessGoes s.sess (sendData c b after s).sess :=
  sessGoes_setLine (s := { s with script := .xfer b :: (after ++ s.script) }) ha

theorem sessGoes_writeReg {b : Byte} {payload : List Byte} {after : List Op} :
    SessGoes s.sess (writeReg c b payload after s).sess :=
  sessGoes_setLine (s := { s with script := .xfer b :: (dataOps payload ++ after ++ s.script.tail) }) ha

end

/-- An operation of a script that keeps the rules moves SESS by R251. -/
theorem sessGoes_microStep {op : Op} (hp : planOk c s.cmd s.sess s.dc s.own (op :: s.script) = true) :
    SessGoes s.sess (microStep c op s).sess := by
  cases op with
  | acq =>
    simp only [planOk, Bool.and_eq_true, decide_eq_true_eq] at hp
    obtain ⟨⟨⟨hc, hx⟩, -⟩, -⟩ := hp
    exact sessGoes_acquire (by simp [hc, hx, mayAbort, abortState])
  | set l v =>
    simp only [planOk, Bool.and_eq_true] at hp
    obtain ⟨⟨ha, -⟩, -⟩ := hp
    exact sessGoes_setLine ha
  | xfer b =>
    simp only [planOk, Bool.and_eq_true] at hp
    obtain ⟨⟨⟨ha, -⟩, -⟩, -⟩ := hp
    exact sessGoes_transfer ha
  | busyWait k =>
    simp only [planOk, Bool.and_eq_true] at hp
    obtain ⟨⟨⟨ha, -⟩, -⟩, -⟩ := hp
    exact sessGoes_pollBusy ha
  | fill b n =>
    simp only [planOk, Bool.and_eq_true] at hp
    obtain ⟨⟨ha, -⟩, -⟩ := hp
    cases n with
    | zero => exact .inl rfl
    | succ n => exact sessGoes_sendData ha
  | stream k n =>
    simp only [planOk, Bool.and_eq_true] at hp
    obtain ⟨⟨ha, -⟩, -⟩ := hp
    cases n with
    | zero => exact .inl rfl
    | succ n =>
      simp only [microStep]
      split
      · exact .inl rfl
      · exact sessGoes_sendData ha
  | sess x =>
    simp only [planOk, Bool.and_eq_true, decide_eq_true_eq] at hp
    exact .inr hp.1
  | relSet l => exact .inl (driveLine_sess c l false s)
  | finish x e =>
    simp only [planOk, Bool.and_eq_true, decide_eq_true_eq] at hp
    obtain ⟨⟨⟨-, hmove⟩, -⟩, -⟩ := hp
    exact .inr hmove
  | instr k | hold n | pollHold k | rel | halted => exact .inl rfl

/-! ### The moves of an instruction and of the core's step -/

/-- A command enters OPENING from CLOSED, BUSY from IDLE, CLOSED from FAILED, or leaves SESS alone. -/
theorem CommandEffect.sessGoes {i : Instr} (h : CommandEffect c s i t) : SessGoes s.sess t.sess := by
  cases h with
  | opens hx | refreshes hi hx | closes hx | forgets hx ho =>
    rw [hx]
    exact .inr (by simp [sessMoves])
  | releases hx ho => exact .inl hx.symm
  | _ => exact .inl rfl

/-- The core's step, with the sequencer in order, moves SESS by R251. -/
theorem sessGoes_coreStep (h : SequencerOk c s) (hstep : coreStep c (execWith c) s = .next t) :
    SessGoes s.sess t.sess := by
  obtain ⟨-, he⟩ | ⟨-, -, he⟩ | ⟨k, i, rest, hr, hs, hd, he⟩ | ⟨w, e, rest, -, -, -, he⟩ | ⟨b, e, rest, -, -, -, he⟩
    | ⟨op, rest, hr, hs, hop, he⟩ := coreStep_cases c (execWith c) s <;> rw [he] at hstep
  · cases hstep
    exact .inl rfl
  · cases hstep
    exact .inl rfl
  · cases k with
    | cmd w =>
      obtain ⟨w', hw⟩ := encode_of_decodeCommand hd
      exact (execWith_command hw hstep).sessGoes
    | panel b =>
      obtain ⟨-, ha, -⟩ := plan_of_panel h hr hs
      obtain ⟨payload, after, -, hexec⟩ := execWith_panel c s (encode_of_decodePanel hd)
      rw [hexec] at hstep
      cases hstep
      exact sessGoes_writeReg ha
  · cases hstep
    exact .inl rfl
  · cases hstep
  · cases hstep
    obtain hp | ⟨rfl, rfl⟩ := plan_of_op h hr hs hop
    · exact sessGoes_microStep (s := { s with script := rest }) hp
    · exact .inl rfl

/-! ### The host's turn -/

theorem hostRead_sess (c : Config) (w : Width) (a : BitVec 24) (s : State) : (hostRead c w a s).sess = s.sess := by
  unfold hostRead
  repeat' split
  all_goals rfl

theorem writeReg32_sess (off : Nat) (v : Word32) (s : State) : (writeReg32 off v s).sess = s.sess := by
  unfold writeReg32
  repeat' split
  all_goals rfl

theorem setWindowMem_sess (x : Window) (m : Mem) (s : State) : (setWindowMem x m s).sess = s.sess := by
  cases x <;> rfl

theorem hostWrite_sess (c : Config) (w : Width) (a : BitVec 24) (v : Word32) (s : State) :
    (hostWrite c w a v s).sess = s.sess := by
  unfold hostWrite
  split
  · split
    · exact writeReg32_sess _ v s
    · split
      · rfl
      · exact setWindowMem_sess _ _ s
  · rfl

/-- The host's turn moves SESS by R251, unless it is the platform's reset. -/
theorem sessGoes_hostTurn {a : HostAct} (h : SequencerOk c s) (hstep : hostTurn c (execWith c) a s = .next t) :
    SessGoes s.sess t.sess ∨ a = .reset := by
  cases a with
  | rd w addr =>
    cases hstep
    exact .inl (.inl (hostRead_sess c w addr s))
  | wr w addr v =>
    cases hstep
    exact .inl (.inl (hostWrite_sess c w addr v s))
  | pass => exact .inl (sessGoes_coreStep h hstep)
  | wait =>
    simp only [hostTurn] at hstep
    split at hstep
    · exact .inl (sessGoes_coreStep (s := { s with hostQ := .wait :: s.hostQ }) h hstep)
    · cases hstep
      exact .inl (.inl rfl)
  | reset => exact .inr rfl

/-- A step moves SESS by R251, unless the platform resets the core. -/
theorem sessGoes_stepWith (h : SequencerOk c s) (hstep : stepWith c (execWith c) s = .next t) :
    SessGoes s.sess t.sess ∨ ∃ q, s.hostQ = .reset :: q := by
  cases hq : s.hostQ with
  | nil =>
    rw [stepWith_alone hq] at hstep
    exact .inl (sessGoes_coreStep h hstep)
  | cons a q =>
    rw [stepWith_host hq] at hstep
    exact (sessGoes_hostTurn (s := { s with hostQ := q }) h hstep).imp_right fun ha => ⟨q, by rw [ha]⟩

/-- Settles O56: the sequencer in order runs only scripts whose moves of SESS are R251's, and the commands start by them. -/
theorem sessionMovesOnlyAsListed : Obligations.SessionMovesOnlyAsListed := by
  intro s t h hstep
  obtain ⟨-, hseq, -⟩ := h
  rw [step_eq_stepWith] at hstep
  exact or_assoc.mp (sessGoes_stepWith hseq hstep)

end Sys2Proof.Machine
end

section
/-! SUPPORT. For the settling of O34 to O36 and O39: how each session command starts. -/

namespace Sys2Proof.Machine

variable {c : Config} {s : State}

theorem execWith_open (hx : s.sess = .closed) :
    execWith c .openSession s = .next (startCommand .openSession .opening (openScript c) s) := if_pos hx

theorem execWith_clear {id : PalId} (hx : s.sess = .idle) (hid : id ∈ paletteIds) :
    execWith c (.clear id) s = .next (startCommand (.clear id) .busy (refreshScript c) s) :=
  (if_pos hx).trans (if_pos hid)

theorem execWith_clear_nonPalette {id : PalId} (hx : s.sess = .idle) (hid : id ∉ paletteIds) :
    execWith c (.clear id) s = .next (complete .illegalCommand s) :=
  (if_pos hx).trans (if_neg hid)

theorem execWith_display {len : BitVec 24} (hx : s.sess = .idle) (hlen : len.toNat = streamSize c) :
    execWith c (.display len) s = .next (startCommand (.display len) .busy (refreshScript c) s) :=
  (if_pos hx).trans (if_pos hlen)

theorem execWith_close_idle (hx : s.sess = .idle) :
    execWith c .closeSession s = .next (startCommand .closeSession .busy closeScript s) := by
  simp [execWith, closeCmd, hx]

/-- Settles O34: the script's resets hold for the 20 ms of R6. -/
theorem openStartsFromClosed : Obligations.OpenStartsFromClosed :=
  fun _ hx => execWith_open hx

/-- Settles O35: the six identifiers and the length 192,000 pass the checks, and the one booster byte is 0x06. -/
theorem clearAndDisplayStartFromIdle : Obligations.ClearAndDisplayStartFromIdle := by
  rintro s i hx (⟨id, hid, rfl⟩ | rfl)
  · exact execWith_clear hx hid
  · exact execWith_display hx rfl

/-- Settles O36: the branches of R263. -/
theorem closeActsByState : Obligations.CloseActsByState := by
  refine fun s => ⟨fun hx => ?closed, fun hx ho => ?owned, fun hx ho => ?unowned,
    fun hx => execWith_close_idle (c := Config.epd6) hx⟩
  case closed => simp [exec, execCloseSession, closeCmd, hx, complete, finish]
  case owned => simp [exec, execCloseSession, closeCmd, hx, ho, startCommand, releaseTail]
  case unowned => simp [exec, execCloseSession, closeCmd, hx, ho, finish]

/-- Settles O39: the identifiers are those of the palette. -/
theorem clearRefusesNonPaletteId : Obligations.ClearRefusesNonPaletteId :=
  fun _ _ hx hid => execWith_clear_nonPalette (c := Config.epd6) hx hid

end Sys2Proof.Machine
end

section
/-! SUPPORT. For the settling of O48 to O51 and O53: a whole session command is a chain of runs, each of which sends the events of a part of the script. -/

namespace Sys2Proof.Machine

variable {c : Config} {s : State} {ops ops' ops'' rest : List Op} {evs evs' : List Event}

/-! ### The state after events that are all `ok` -/

/-- DC, `d` before, after events that are all `ok` (44_panel_protocol.md R204). -/
def dcAfter (d : Bool) (evs : List Event) : Bool :=
  evs.foldl (fun d e =>
    match e with
    | .set .dc v _ => v
    | _ => d) d

/-- BUSY_RAW, `r` before, after events that are all `ok`: the last sample's level (R209). -/
def busyAfter (r : Bool) (evs : List Event) : Bool :=
  evs.foldl (fun r e =>
    match e with
    | .sample (some v) => v
    | _ => r) r

/-- The state after transfers, samples and settings of DC, `evs`, that are all `ok`, with `ops` left of the script. -/
def sent (s : State) (evs : List Event) (ops : List Op) : State :=
  { s with
    dc := dcAfter s.dc evs, busyRaw := busyAfter s.busyRaw evs, trace := evs.reverse ++ s.trace
    draws := s.draws + evs.length, script := ops }

theorem dcAfter_append (d : Bool) (evs evs' : List Event) : dcAfter d (evs ++ evs') = dcAfter (dcAfter d evs) evs' :=
  List.foldl_append

theorem busyAfter_append (r : Bool) (evs evs' : List Event) :
    busyAfter r (evs ++ evs') = busyAfter (busyAfter r evs) evs' :=
  List.foldl_append

theorem sent_sent (s : State) (evs evs' : List Event) (ops ops' : List Op) :
    sent (sent s evs ops) evs' ops' = sent s (evs ++ evs') ops' := by
  simp [sent, dcAfter_append, busyAfter_append, Nat.add_assoc]

theorem dcAfter_dataEvents (d : Bool) (p : List Byte) : dcAfter d (dataEvents p) = (d || !p.isEmpty) := by
  induction p generalizing d with
  | nil => simp [dataEvents, dcAfter]
  | cons b p ih =>
    have h : dcAfter d (dataEvents (b :: p)) = dcAfter true (dataEvents p) := rfl
    simp [h, ih]

theorem busyAfter_dataEvents (r : Bool) (p : List Byte) : busyAfter r (dataEvents p) = r := by
  induction p with
  | nil => rfl
  | cons b p ih => exact ih

theorem dcAfter_writeEvents (d : Bool) (b : Byte) (p : List Byte) : dcAfter d (writeEvents b p) = !p.isEmpty :=
  (dcAfter_append d _ _).trans (dcAfter_dataEvents false p)

theorem busyAfter_writeEvents (r : Bool) (b : Byte) (p : List Byte) : busyAfter r (writeEvents b p) = r :=
  busyAfter_dataEvents r p

theorem busyAfter_append_idleSample (r : Bool) (c : Config) (evs : List Event) :
    busyAfter r (evs ++ [idleSample c]) = c.busyIdleLevel :=
  busyAfter_append r evs _

/-- The events of the init sequence (R231). -/
def initEvents (c : Config) : List Event :=
  initBytes.flatMap (fun b => writeEvents b (c.initPayload b)) ++ writeEvents 0x04 (c.extraPayload 0x04) ++ [idleSample c]

/-- OPEN's events are the wake, a busy-wait and the init sequence (45_session.md R260). -/
theorem openEvents_eq (c : Config) : openEvents c = wakeEvents c ++ ([idleSample c] ++ initEvents c) := by
  simp only [openEvents, initEvents, initBytes, List.append_assoc]

/-- The events of CLOSE from IDLE that take the panel to sleep (R263). -/
def offEvents (c : Config) : List Event :=
  writeEvents 0x02 (c.extraPayload 0x02) ++ [idleSample c] ++ writeEvents 0x07 [0xA5]

/-- CLOSE's events are the panel's sleep and the release (R263). -/
theorem closeEvents_eq (c : Config) :
    closeEvents c = offEvents c ++ [.set .rst false .ok, .set .dc false .ok, .set .pwr false .ok, .rel] := rfl

theorem busyAfter_offEvents (r : Bool) (c : Config) : busyAfter r (offEvents c) = c.busyIdleLevel := by
  rw [offEvents, busyAfter_append, busyAfter_writeEvents, busyAfter_append_idleSample]

theorem length_dataEvents (p : List Byte) : (dataEvents p).length = 2 * p.length := by
  simp [dataEvents, Nat.mul_comm]

theorem length_writeEvents (b : Byte) (p : List Byte) : (writeEvents b p).length = 2 + 2 * p.length := by
  rw [writeEvents, List.length_append, length_dataEvents]
  rfl

theorem busyAfter_initEvents (r : Bool) (c : Config) :
    busyAfter r ([idleSample c] ++ initEvents c) = c.busyIdleLevel := by
  rw [initEvents, ← List.append_assoc, busyAfter_append_idleSample]

theorem busyAfter_refreshEvents (r : Bool) (c : Config) (buf : List Byte) :
    busyAfter r (refreshEvents c buf) = c.busyIdleLevel := by
  rw [refreshEvents, turnOnEvents, ← List.append_assoc, busyAfter_append_idleSample]

theorem boosterOk_initBytes (hb : c.boosterOk = true) : ∀ b ∈ c.turnonBooster, b ∈ initBytes := by
  intro b hmem
  obtain rfl | rfl | rfl := of_decide_eq_true (List.all_eq_true.mp hb b hmem) <;> decide

theorem decode_clearWord (id : PalId) : decode (.cmd ((0x1100000 : BitVec 28) ++ id)) = .ok (.clear id) :=
  decode_encode_clear id

/-! ### Sending a part of the script -/

/-- In the command of `s`, the core left alone takes its script from `ops` to `ops'` by sending exactly `evs`. -/
def Sends (c : Config) (s : State) (ops : List Op) (evs : List Event) (ops' : List Op) : Prop :=
  ∀ before, runWith c evs.length (sent s before ops) = .next (sent s (before ++ evs) ops')

theorem Sends.of_run
    (h : ∀ before, runWith c evs.length (sent s before ops) = .next (sent (sent s before ops) evs ops')) :
    Sends c s ops evs ops' :=
  fun before => (h before).trans (congrArg Host.Outcome.next (sent_sent s before evs ops ops'))

theorem Sends.refl : Sends c s ops [] ops :=
  fun before => by rw [List.append_nil]; rfl

theorem Sends.trans (h : Sends c s ops evs ops') (h' : Sends c s ops' evs' ops'') :
    Sends c s ops (evs ++ evs') ops'' := by
  intro before
  rw [List.length_append, ← List.append_assoc]
  exact (runSteps_add (h before)).trans (h' _)

/-- The run from the script's present position. -/
theorem Sends.run (h : Sends c s s.script evs ops') : runWith c evs.length s = .next (sent s evs ops') :=
  h []

theorem runWith_finish {x : Sess} {e : Err} (hs : s.script = [.finish x e]) (hr : s.run = true) (hq : s.hostQ = []) :
    runWith c 1 s = .next (finish x e s) :=
  runWith_op hr hq hs (by simp)

/-- The completion after a part of the script ends the command. -/
theorem Sends.finishes {x : Sess} {e : Err} (h : Sends c s s.script evs [.finish x e]) (hr : s.run = true)
    (hq : s.hostQ = []) : runWith c (evs.length + 1) s = .next (finish x e (sent s evs [.finish x e])) :=
  (runSteps_add h.run).trans (runWith_finish rfl hr hq)

/-- The tail's end releases the lines and completes the command (R203). -/
theorem runWith_rel_finish {x : Sess} {e : Err} (hs : s.script = [.rel, .finish x e]) (hr : s.run = true)
    (hq : s.hostQ = []) : runWith c 2 s = .next (finish x e (release s)) :=
  (runWith_op hr hq hs (by simp)).trans (runWith_finish (s := release { s with script := [.finish x e] }) rfl hr hq)

section
variable (henv : AllOk c) (hr : s.run = true) (hq : s.hostQ = [])
include henv hr hq

/-- The register write of a byte other than 0x10 (44_panel_protocol.md R208). -/
theorem sends_registerWrite {b : Byte} {p : List Byte} {after : List Op} (hw : RegisterWrite c b p after) :
    Sends c s (panelOp b :: rest) (writeEvents b p) (after ++ rest) := by
  refine .of_run fun before => ?_
  rw [length_writeEvents, runWith_registerWrite (s := sent s before (panelOp b :: rest)) henv.1 hw hr hq rfl]
  simp only [sent, dcAfter_writeEvents, busyAfter_writeEvents, length_writeEvents]

/-- A busy-wait that reads idle at once (R209). -/
theorem sends_busyWait {k : Nat} : Sends c s (.busyWait k :: rest) [idleSample c] rest := by
  refine .of_run fun before => (runWith_op (s := sent s before (.busyWait k :: rest)) hr hq rfl (by simp)).trans ?_
  rw [microStep, pollBusy_idle (henv.2 _)]
  rfl

/-- The register write of a byte with a busy-wait (R225, R227, R228). -/
theorem sends_waitingWrite {b : Byte} (hb : b ∈ ([0x04, 0x12, 0x02] : List Byte)) :
    Sends c s (panelOp b :: rest) (writeEvents b (c.extraPayload b) ++ [idleSample c]) rest :=
  .trans (sends_registerWrite henv hr hq (.inr (.inl ⟨hb, rfl, rfl⟩))) (sends_busyWait henv hr hq)

/-- The register writes of init bytes, one after the other (R212 to R224). -/
theorem sends_initWrites {bs : List Byte} (hbs : ∀ b ∈ bs, b ∈ initBytes) :
    Sends c s (bs.map panelOp ++ rest) (bs.flatMap fun b => writeEvents b (c.initPayload b)) rest := by
  induction bs with
  | nil => exact .refl
  | cons b bs ih =>
    obtain ⟨hb, hbs⟩ := List.forall_mem_cons.mp hbs
    exact .trans (sends_registerWrite henv hr hq (.inl ⟨hb, rfl, rfl⟩)) (ih hbs)

/-- The turn-on sequence (R229). -/
theorem sends_turnOn (hb : ∀ b ∈ c.turnonBooster, b ∈ initBytes) :
    Sends c s (turnOn c ++ rest) (turnOnEvents c) rest := by
  have h : Sends c s (panelOp 0x04 :: (c.turnonBooster.map panelOp ++ panelOp 0x12 :: panelOp 0x02 :: rest)) _ rest :=
    .trans (sends_waitingWrite henv hr hq (by decide)) (.trans (sends_initWrites henv hr hq hb)
      (.trans (sends_waitingWrite henv hr hq (by decide)) (sends_waitingWrite henv hr hq (by decide))))
  simpa [turnOn, turnOnEvents] using h

/-- An operation that begins `SendData(b)` (R207). -/
theorem sends_sendData {op : Op} {b : Byte} {after : List Op} (hop : ∀ k, op ≠ .instr k)
    (hm : ∀ t : State, t.packRam = s.packRam → microStep c op t = sendData c b after t) :
    Sends c s (op :: rest) (dataEvents [b]) (after ++ rest) := by
  refine .of_run fun before => (runWith_op (s := sent s before (op :: rest)) hr hq rfl hop).trans ?_
  rw [hm { sent s before (op :: rest) with script := rest } rfl, sendData,
    (setLine_outcomes c .dc true (sent s before (op :: rest)) _).1 (henv.1 _)]
  exact runWith_xfer_ok henv.1 hr hq rfl

/-- CLEAR's data bytes (45_session.md R261). -/
theorem sends_fillOps (b : Byte) (n : Nat) : Sends c s (fillOps b n ++ rest) (dataEvents (List.replicate n b)) rest := by
  induction n with
  | zero => exact .refl
  | succ n ih => exact .trans (sends_sendData henv hr hq (by simp) fun _ _ => rfl) ih

/-- DISPLAY's data bytes (R262). -/
theorem sends_streamOps {buf : Nat → Byte} {k n : Nat}
    (hbuf : ∀ a, k ≤ a → a < k + n → readByte s.packRam a = some (buf a)) :
    Sends c s (streamOps k n ++ rest) (dataEvents ((List.range' k n).map buf)) rest := by
  induction n generalizing k with
  | zero => exact .refl
  | succ n ih =>
    have hk : readByte s.packRam k = some (buf k) := hbuf k le_rfl (by omega)
    exact .trans (sends_sendData henv hr hq (by simp) fun t ht => microStep_stream (by rw [ht, hk]))
      (ih fun a h1 h2 => hbuf a (by omega) (by omega))

/-- 0x10, its data bytes being those of the command in progress (44_panel_protocol.md R226). -/
theorem sends_writeRam {buf : List Byte}
    (hbuf : Sends c s (ramPayload c s.cmd ++ rest) (dataEvents buf) rest) :
    Sends c s (panelOp 0x10 :: rest) (writeEvents 0x10 buf) rest := by
  have hcmd : Sends c s (panelOp 0x10 :: rest) (writeEvents 0x10 []) (ramPayload c s.cmd ++ rest) := by
    refine .of_run fun before => ?_
    have hstart : execWith c .panelWriteRam (sent s before (panelOp 0x10 :: rest)) = _ :=
      congrArg Host.Outcome.next ((setLine_outcomes c .dc false (sent s before (panelOp 0x10 :: rest)) _).1 (henv.1 _))
    exact (runWith_instr (s := sent s before (panelOp 0x10 :: rest)) hr hq rfl rfl hstart).trans
      (runWith_xfer_ok henv.1 hr hq rfl)
  exact hcmd.trans hbuf

/-- The script of CLEAR and DISPLAY, up to its completion (45_session.md R261, R262). -/
theorem sends_refreshScript {buf : List Byte} (hb : ∀ b ∈ c.turnonBooster, b ∈ initBytes)
    (hbuf : ∀ rest, Sends c s (ramPayload c s.cmd ++ rest) (dataEvents buf) rest) :
    Sends c s (refreshScript c) (refreshEvents c buf) [.finish .idle .ok] :=
  .trans (sends_writeRam henv hr hq (hbuf _)) (sends_turnOn henv hr hq hb)

/-- OPEN's script from its busy-wait on (R260, 44_panel_protocol.md R231). -/
theorem sends_initSeq : Sends c s (.busyWait 0 :: (initSeq ++ rest)) ([idleSample c] ++ initEvents c) rest := by
  have h : Sends c s (initBytes.map panelOp ++ panelOp 0x04 :: rest) _ rest :=
    .trans (sends_initWrites henv hr hq fun b hb => hb) (sends_waitingWrite henv hr hq (by decide))
  refine .trans (sends_busyWait henv hr hq) ?_
  simpa [initSeq, initEvents] using h

/-- CLOSE's script from IDLE, up to SLEEPING (R263). -/
theorem sends_closeScript :
    Sends c s closeScript (offEvents c) (.sess .sleeping :: (releaseTail ++ [.finish .closed .ok])) :=
  .trans (sends_waitingWrite henv hr hq (by decide))
    (sends_registerWrite henv hr hq (.inr (.inr ⟨rfl, rfl, rfl⟩)))

/-- A line of the release (R203). -/
theorem runWith_relSet_ok {n : Nat} {l : Line} (hs : s.script = .relSet l :: rest) :
    runWith c (n + 1) s = runWith c n { setLatch l false s with
      trace := .set l false .ok :: s.trace, draws := s.draws + 1, script := rest } := by
  rw [runWith_op hr hq hs (by simp), microStep, driveLine_ok (henv.1 _)]
  cases l <;> rfl

/-- The three lines of the release. -/
theorem runWith_relLines {n : Nat} (hs : s.script = .relSet .rst :: .relSet .dc :: .relSet .pwr :: rest) :
    runWith c (n + 3) s = runWith c n { s with
      rst := false, dc := false, pwr := false
      trace := [.set .pwr false .ok, .set .dc false .ok, .set .rst false .ok] ++ s.trace, draws := s.draws + 3
      script := rest } := by
  have hdc := runWith_relSet_ok henv (n := n + 1) (s := { s with
    rst := false, trace := .set .rst false .ok :: s.trace, draws := s.draws + 1
    script := .relSet .dc :: .relSet .pwr :: rest }) hr hq rfl
  have hpwr := runWith_relSet_ok henv (n := n) (s := { s with
    rst := false, dc := false, trace := .set .dc false .ok :: .set .rst false .ok :: s.trace, draws := s.draws + 2
    script := .relSet .pwr :: rest }) hr hq rfl
  exact (runWith_relSet_ok henv hr hq hs).trans (hdc.trans hpwr)

/-- CLOSE's script from SLEEPING on (R203, 45_session.md R263): the latches 0, the lines released, the command over. -/
theorem runWith_sleepAndRelease (hs : s.script = .sess .sleeping :: (releaseTail ++ [.finish .closed .ok])) :
    runWith c 6 s = .next { completed .ok s with
      sess := .closed, rst := false, dc := false, pwr := false, own := false
      trace := [.rel, .set .pwr false .ok, .set .dc false .ok, .set .rst false .ok] ++ s.trace, draws := s.draws + 4 } := by
  have hlines := runWith_relLines henv (n := 2) (rest := [.rel, .finish .closed .ok])
    (s := { s with sess := .sleeping, script := releaseTail ++ [.finish .closed .ok] }) hr hq rfl
  have hsleep : runWith c 6 s = runWith c (2 + 3) _ := runWith_op hr hq hs (by simp)
  exact hsleep.trans (hlines.trans (runWith_rel_finish rfl hr hq))

/-! ### Whole commands -/

/-- CLEAR or DISPLAY from IDLE that streams `buf` (45_session.md R261, R262). -/
theorem runWith_refresh {w : Word32} {i : Instr} {buf : List Byte} (hb : c.boosterOk = true)
    (hs : s.script = [.instr (.cmd w)]) (hd : decode (.cmd w) = .ok i)
    (hi : execWith c i s = .next (startCommand i .busy (refreshScript c) s))
    (hbuf : ∀ rest,
      Sends c (startCommand i .busy (refreshScript c) s) (commandPayload c i ++ rest) (dataEvents buf) rest) :
    runWith c ((refreshEvents c buf).length + 2) s = .next { completed .ok s with
      sess := .idle, dc := dcAfter s.dc (refreshEvents c buf), busyRaw := c.busyIdleLevel
      trace := (refreshEvents c buf).reverse ++ s.trace, draws := s.draws + (refreshEvents c buf).length } := by
  rw [runWith_instr hr hq hs hd hi]
  have hsent := sends_refreshScript (s := startCommand i .busy (refreshScript c) s) henv hr hq
    (boosterOk_initBytes hb) hbuf
  rw [hsent.finishes hr hq, ← busyAfter_refreshEvents s.busyRaw c buf]
  rfl

end

/-- Settles O48: OPEN wakes the panel, waits, sends the init sequence and completes. -/
theorem openSendsItsEvents : Obligations.OpenSendsItsEvents := by
  rintro c s henv ⟨hr, hs, hq⟩ hx
  obtain ⟨awake, hwake⟩ := runWith_wake henv.1 (s := startCommand .openSession .opening (openScript c) s)
    (rest := .busyWait 0 :: (initSeq ++ [.finish .idle .ok])) hr hq rfl
  have hsent := sends_initSeq henv (rest := [.finish .idle .ok]) (s := { s with
    sess := .opening, cmd := some .openSession, own := true, rst := true, pwr := true
    trace := (wakeEvents c).reverse ++ s.trace, draws := s.draws + 8, time := awake
    script := .busyWait 0 :: (initSeq ++ [.finish .idle .ok]) }) hr hq
  have hlen : (openEvents c).length + 2 = 8 + (([idleSample c] ++ initEvents c).length + 1) + 1 := by
    rw [openEvents_eq, List.length_append, show (wakeEvents c).length = 8 from rfl]
    omega
  rw [hlen, runWith_instr hr hq hs rfl (execWith_open hx)]
  refine ⟨_, (runSteps_add hwake).trans (hsent.finishes hr hq), ?_⟩
  simp only [finish, sent, busyAfter_initEvents, openEvents_eq, List.reverse_append, List.length_append,
    List.append_assoc, Nat.add_assoc]
  rfl

/-- Settles O49: CLEAR's data bytes are its fill. -/
theorem clearSendsItsEvents : Obligations.ClearSendsItsEvents := by
  rintro c s id henv hb hid ⟨hr, hs, hq⟩ hx
  exact ⟨_, runWith_refresh henv hr hq hb hs (decode_clearWord id) (execWith_clear hx hid)
    fun _ => sends_fillOps (s := startCommand (.clear id) .busy (refreshScript c) s) henv hr hq (id ++ id) (streamSize c),
    rfl⟩

/-- Settles O50: DISPLAY's data bytes are those of PACK_RAM. -/
theorem displaySendsItsEvents : Obligations.DisplaySendsItsEvents := by
  rintro c s buf henv hb hsize hbuf ⟨hr, hs, hq⟩ hx
  have hlen : (BitVec.ofNat 24 (c.W / 2 * c.H)).toNat = c.W / 2 * c.H :=
    (BitVec.toNat_ofNat _ _).trans (Nat.mod_eq_of_lt hsize)
  rw [List.range_eq_range']
  refine ⟨_, runWith_refresh henv hr hq hb hs (decode_encode_display _) (execWith_display hx hlen) fun _ => ?_, rfl⟩
  rw [commandPayload, hlen]
  exact sends_streamOps (s := startCommand (.display _) .busy (refreshScript c) s) henv hr hq
    fun a _ ha => hbuf a (by omega)

/-- Settles O51: CLOSE powers the panel off, puts it to sleep, enters SLEEPING and releases the lines. -/
theorem closeSendsItsEvents : Obligations.CloseSendsItsEvents := by
  rintro c s henv ⟨hr, hs, hq⟩ hx
  have hoff := sends_closeScript henv (s := startCommand .closeSession .busy closeScript s) hr hq
  have hlen : (closeEvents c).length + 3 = (offEvents c).length + 6 + 1 := by
    rw [closeEvents_eq, List.length_append]
    rfl
  rw [hlen, runWith_instr hr hq hs rfl (execWith_close_idle hx)]
  refine ⟨_, (runSteps_add hoff.run).trans (runWith_sleepAndRelease (s := sent _ _ _) henv hr hq rfl), ?_⟩
  simp only [sent, busyAfter_offEvents, closeEvents_eq, List.reverse_append, List.append_assoc]
  rfl

/-! ### The lengths of R265 -/

theorem length_openEvents (c : Config) : (openEvents c).length = 1 + 1 + 6 + 1
    + (initBytes.map fun b => 2 + 2 * (c.initPayload b).length).sum + (2 + 2 * (c.extraPayload 0x04).length) + 1 := by
  simp only [openEvents, List.length_append, List.length_flatMap, length_writeEvents]
  rfl

theorem length_refreshEvents (c : Config) (buf : List Byte) (hb : c.turnonBooster = [0x06]) :
    (refreshEvents c buf).length = 2 + 2 * buf.length
      + ((2 + 2 * (c.extraPayload 0x04).length) + 1 + (2 + 2 * (c.initPayload 0x06).length)
        + (2 + 2 * (c.extraPayload 0x12).length) + 1 + (2 + 2 * (c.extraPayload 0x02).length) + 1) := by
  simp [refreshEvents, turnOnEvents, hb, length_writeEvents]
  omega

theorem length_closeEvents (c : Config) :
    (closeEvents c).length = (2 + 2 * (c.extraPayload 0x02).length) + 1 + 4 + 4 := by
  simp [closeEvents, length_writeEvents]

/-- A run that ends the command with ERR = 0 and has sent `evs`. -/
theorem endsAfter_of_trace {k n : Nat} {t : State} (h : runWith c k s = .next t) (hr : t.run = false) (he : t.err = .ok)
    (ht : t.trace = evs.reverse ++ s.trace) (hn : evs.length = n) : EndsAfter c s n :=
  ⟨k, t, h, hr, he, by simp [ht, ← hn, Nat.add_comm]⟩

/-- Settles O53: the commands' runs are those of O48 to O51, whose events are counted. -/
theorem traceLengthsAreAsListed : Obligations.TraceLengthsAreAsListed := by
  intro c s henv hb
  have hboost : c.boosterOk = true := by simp [Config.boosterOk, hb]
  refine ⟨fun hx h => ?opens, fun hx h => ?refreshes, fun hx h => ?closes⟩
  case opens =>
    obtain ⟨t, hrun, ht⟩ := openSendsItsEvents c s henv h hx
    exact endsAfter_of_trace hrun (by rw [ht]) (by rw [ht]) (by rw [ht]) (length_openEvents c)
  case refreshes =>
    obtain ⟨id, hid, h⟩ | ⟨hsize, hwritten, h⟩ := h
    · obtain ⟨t, hrun, ht⟩ := clearSendsItsEvents c s id henv hboost hid h hx
      exact endsAfter_of_trace hrun (by rw [ht]) (by rw [ht]) (by rw [ht])
        (by rw [length_refreshEvents c _ hb, List.length_replicate])
    · choose! buf hbuf using fun k hk => Option.ne_none_iff_exists'.mp (hwritten k hk)
      obtain ⟨t, hrun, ht⟩ := displaySendsItsEvents c s buf henv hboost hsize hbuf h hx
      exact endsAfter_of_trace hrun (by rw [ht]) (by rw [ht]) (by rw [ht])
        (by rw [length_refreshEvents c _ hb, List.length_map, List.length_range])
  case closes =>
    obtain ⟨t, hrun, ht⟩ := closeSendsItsEvents c s henv h hx
    exact endsAfter_of_trace hrun (by rw [ht]) (by rw [ht]) (by rw [ht]) (length_closeEvents c)

end Sys2Proof.Machine
end

section
/-! SUPPORT. For the settling of O8 and O9: what a step makes of OVR. -/

namespace Sys2Proof.Machine

variable {c : Config} {s t : State}

/-! ### The sequencer never touches OVR -/

@[simp] theorem abort_ovr (e : Err) (s : State) : (abort e s).ovr = s.ovr := by
  obtain ⟨_, _, _, _, _, h⟩ := abort_frame e s
  rw [h]

@[simp] theorem driveLine_ovr (c : Config) (l : Line) (v : Bool) (s : State) : (driveLine c l v s).ovr = s.ovr := by
  obtain ⟨u, h⟩ := driveLine_form c l v s
  rw [h, emit_ovr, setLatch_ovr]

@[simp] theorem setLine_ovr (c : Config) (l : Line) (v : Bool) (s : State) : (setLine c l v s).ovr = s.ovr := by
  obtain ⟨u, x, e, r, k, ops, h⟩ := setLine_form c l v s
  rw [h, emit_ovr, setLatch_ovr]

@[simp] theorem transfer_ovr (c : Config) (b : Byte) (s : State) : (transfer c b s).ovr = s.ovr := by
  rcases ack_cases (c.ack s.draws) with h | h
  · rw [transfer_ok h, emit_ovr]
  · rw [transfer_err h, abort_ovr, emit_ovr]

@[simp] theorem acquire_ovr (c : Config) (s : State) : (acquire c s).ovr = s.ovr := by
  rcases ack_cases (c.ack s.draws) with h | h
  · rw [acquire_ok h, emit_ovr]
  · rw [acquire_err h, abort_ovr, emit_ovr]

@[simp] theorem pollBusy_ovr (c : Config) (k : Nat) (s : State) : (pollBusy c k s).ovr = s.ovr := by
  cases h : c.sample s.draws with
  | none => rw [pollBusy_err h, abort_ovr, emit_ovr]
  | some v =>
    by_cases hv : v = c.busyIdleLevel
    · rw [pollBusy_idle (hv ▸ h), emit_ovr]
    · by_cases hk : k = nPoll c
      · rw [hk, pollBusy_timeout h hv, abort_ovr, emit_ovr]
      · rw [pollBusy_again h hv hk, emit_ovr]

@[simp] theorem sendData_ovr (c : Config) (b : Byte) (after : List Op) (s : State) :
    (sendData c b after s).ovr = s.ovr := setLine_ovr c .dc true _

theorem microStep_ovr (c : Config) (op : Op) (s : State) : (microStep c op s).ovr = s.ovr := by
  cases op with
  | fill b n => cases n <;> simp [microStep]
  | stream k n =>
    cases n with
    | zero => rfl
    | succ n => cases h : readByte s.packRam k <;> simp [microStep, h]
  | _ => simp [microStep]

/-- The core's step keeps OVR: an instruction does by O58, and so do the operations of a script. -/
theorem coreStep_ovr (h : coreStep c exec s = .next t) : t.ovr = s.ovr := by
  obtain ⟨-, he⟩ | ⟨-, -, he⟩ | ⟨k, i, rest, -, -, -, he⟩ | ⟨w, e, rest, -, -, -, he⟩ | ⟨b, e, rest, -, -, -, he⟩
    | ⟨op, rest, -, -, -, he⟩ := coreStep_cases c exec s <;> rw [he] at h
  case inr.inr.inl =>
    obtain ⟨-, -, -, hovr, -⟩ := instructionsChangeOnlyTheirState i s t h
    exact hovr
  all_goals cases h
  case inr.inr.inr.inr.inr => exact microStep_ovr c op _
  all_goals rfl

/-! ### What the host's accesses make of OVR (60_exceptions.md R320) -/

@[simp] theorem hostRead_ovr (c : Config) (w : Width) (a : BitVec 24) (s : State) : (hostRead c w a s).ovr = s.ovr := by
  unfold hostRead
  repeat' split
  all_goals rfl

@[simp] theorem setWindowMem_ovr (x : Window) (m : Mem) (s : State) : (setWindowMem x m s).ovr = s.ovr := by
  cases x <;> rfl

/-- While RUN = 1 a write to CMD or IN_DIM is dropped. -/
theorem writeReg32_dropped {off : Nat} (v : Word32) (hr : s.run = true) (hoff : off = 0x000 ∨ off = 0x00C) :
    writeReg32 off v s = { s with ovr := true } := by
  obtain rfl | rfl := hoff <;> simp [writeReg32, hr]

/-- Of the register writes only that of STATUS with bit 8 set takes OVR = 1 away. -/
theorem writeReg32_ovr {off : Nat} {v : Word32} (h : s.ovr = true) (hv : off = 0x004 → v.getLsbD 8 = false) :
    (writeReg32 off v s).ovr = true := by
  by_cases hoff : off = 0x004
  · rw [hoff, writeReg32_status, h, hv hoff]
    rfl
  · unfold writeReg32
    split_ifs <;> simp [h]

/-- In the register window STATUS has the address 0x004 and is written with 32 bits. -/
theorem status_of_accessOk {w : Width} {a : BitVec 24} (hok : accessOk c w a = true) (hw : windowOf a = .regs)
    (ho : offsetOf a = 0x004) : w = .w32 ∧ a = 0x004 := by
  have hlt : a.toNat < 0x400000 := by
    by_contra hge
    simp only [windowOf, if_neg hge] at hw
    split_ifs at hw
  exact ⟨((accessOk_regs hlt).mp hok).2, BitVec.eq_of_toNat_eq ((Nat.mod_eq_of_lt hlt).symm.trans ho)⟩

theorem hostWrite_ovr {w : Width} {a : BitVec 24} {v : Word32} (h : s.ovr = true)
    (hv : w = .w32 → a = 0x004 → v.getLsbD 8 = false) : (hostWrite c w a v s).ovr = true := by
  unfold hostWrite
  split
  · split
    · refine writeReg32_ovr h fun ho => ?_
      obtain ⟨hw, ha⟩ := status_of_accessOk ‹_› ‹_› ho
      exact hv hw ha
    · split <;> simpa
  · exact h

theorem hostTurn_ovr {a : HostAct} (h : s.ovr = true) (hstep : hostTurn c exec a s = .next t)
    (hv : ∀ v, a = .wr .w32 0x004 v → v.getLsbD 8 = false) (hr : a ≠ .reset) : t.ovr = true := by
  cases a with
  | rd w addr =>
    cases hstep
    rwa [hostRead_ovr]
  | wr w addr v =>
    cases hstep
    refine hostWrite_ovr h ?_
    rintro rfl rfl
    exact hv v rfl
  | pass => rwa [coreStep_ovr hstep]
  | wait =>
    simp only [hostTurn] at hstep
    split at hstep
    · rwa [coreStep_ovr hstep]
    · cases hstep
      exact h
  | reset => exact absurd rfl hr

/-- Settles O9: the core keeps OVR, and of the host's actions only the two named take it away. -/
theorem ovrStaysUntilCleared : Obligations.OvrStaysUntilCleared := by
  intro s t h hstep hv hreset
  cases hq : s.hostQ with
  | nil =>
    rw [step, stepWith_alone hq] at hstep
    rwa [coreStep_ovr hstep]
  | cons a q =>
    rw [step, stepWith_host hq] at hstep
    refine hostTurn_ovr (s := { s with hostQ := q }) h hstep (fun v ha => hv v q (ha ▸ hq)) ?_
    rintro rfl
    exact hreset q hq

/-- Settles O8: the register write is dropped. -/
theorem droppedWriteOnlySetsOvr : Obligations.DroppedWriteOnlySetsOvr := by
  intro s a v q hr ha hq
  have hoff : a.toNat = 0x000 ∨ a.toNat = 0x00C := ha.imp (congrArg BitVec.toNat) (congrArg BitVec.toNat)
  rw [step_registerWrite hq (by omega) (by omega), writeReg32_dropped v (s := { s with hostQ := q }) hr hoff]

end Sys2Proof.Machine
end

section
/-! SUPPORT. For the settling of O33, O37 and O38: the error codes an instruction can leave, and the conditions of each. -/

namespace Sys2Proof.Machine

variable {c : Config} {s t : State}

/-- When instruction `i` raises an error code in the state `s` (60_exceptions.md R302 to R308). -/
inductive Raises (c : Config) (s : State) : Instr → Err → Prop where
  /-- R302. -/
  | dimensions (h : classify c (inW s) (inH s) = .mismatch) : Raises c s .orient .dimensionMismatch
  /-- R303. -/
  | oddPixels (h : c.W * c.H % 2 = 1) : Raises c s .pack .oddPixelCount
  /-- R304. -/
  | wrongLength {len : BitVec 24} (hx : s.sess = .idle) (h : len.toNat ≠ streamSize c) :
    Raises c s (.display len) .sizeMismatch
  /-- R305: the first event of a panel command byte's register write fails. -/
  | busError {i : Instr} {b : Byte} (hi : encode i = .panel b) : Raises c s i .busError
  /-- R307, OPEN. -/
  | notClosed (hx : s.sess ≠ .closed) : Raises c s .openSession .illegalState
  /-- R307, CLEAR and DISPLAY. -/
  | notIdle {i : Instr} (hi : (∃ id, i = .clear id) ∨ ∃ len, i = .display len) (hx : s.sess ≠ .idle) :
    Raises c s i .illegalState
  /-- R308: CLEAR of an identifier that is no palette entry (45_session.md R261). -/
  | notPalette {id : PalId} (hx : s.sess = .idle) (h : id ∉ paletteIds) : Raises c s (.clear id) .illegalCommand

/-! ### The refusals of the session commands and of PACK -/

theorem execWith_pack_odd (h : c.W * c.H % 2 = 1) : execWith c .pack s = .next (complete .oddPixelCount s) := if_pos h

theorem execWith_open_refused (hx : s.sess ≠ .closed) :
    execWith c .openSession s = .next (complete .illegalState s) := if_neg hx

theorem execWith_clear_refused {id : PalId} (hx : s.sess ≠ .idle) :
    execWith c (.clear id) s = .next (complete .illegalState s) := if_neg hx

theorem execWith_display_refused {len : BitVec 24} (hx : s.sess ≠ .idle) :
    execWith c (.display len) s = .next (complete .illegalState s) := if_neg hx

theorem execWith_display_wrongLength {len : BitVec 24} (hx : s.sess = .idle) (hlen : len.toNat ≠ streamSize c) :
    execWith c (.display len) s = .next (complete .sizeMismatch s) :=
  (if_pos hx).trans (if_neg hlen)

/-! ### What an instruction leaves in ERR -/

/-- An abort writes its code, or leaves it to CLOSE's release tail (45_session.md R263). -/
theorem err_abort (e : Err) (s : State) : (abort e s).err = s.err ∨ (abort e s).err = e := by
  by_cases h : s.cmd = some .closeSession
  · exact .inl (by rw [abort_of_close h])
  · exact .inr (by rw [abort_of_ne_close h, finish_err])

theorem err_setLine (c : Config) (l : Line) (v : Bool) (s : State) :
    (setLine c l v s).err = s.err ∨ (setLine c l v s).err = .busError := by
  rcases ack_cases (c.ack s.draws) with h | h
  · exact .inl (by rw [setLine_ok h, emit_err, setLatch_err])
  · obtain ⟨u, hu⟩ := setLine_err (l := l) (v := v) h
    simpa [hu] using err_abort .busError (emit (.set l v .err) (setLatch l u s))

theorem err_writeReg (c : Config) (b : Byte) (payload : List Byte) (after : List Op) (s : State) :
    (writeReg c b payload after s).err = s.err ∨ (writeReg c b payload after s).err = .busError :=
  err_setLine c .dc false { s with script := .xfer b :: (dataOps payload ++ after ++ s.script.tail) }

/-- A pixel command past its checks succeeds, or halts with ERR as it was. -/
theorem err_of_orUnwritten {α : Type} {r : Option α} {k : α → State} (hk : ∀ x, (k x).err = .ok)
    (h : orUnwritten r s k = .next t) : t.err = s.err ∨ t.err = .ok := by
  obtain ⟨x, -, rfl⟩ | rfl := orUnwritten_next h
  · exact .inr (hk x)
  · exact .inl rfl

/-- CLOSE succeeds at once, or starts its script with ERR as it was (45_session.md R263). -/
theorem err_of_closeCmd (h : closeCmd s = .next t) : t.err = s.err ∨ t.err = .ok := by
  unfold closeCmd at h
  split at h
  · cases h
    exact .inr rfl
  · split at h <;> cases h
    · exact .inl rfl
    · exact .inr rfl
  · cases h
    exact .inl rfl
  all_goals cases h

/-- A session command that starts its script leaves ERR to its completion. -/
theorem err_of_startCommand {i j : Instr} {x : Sess} {ops : List Op}
    (he : execWith c i s = .next (startCommand j x ops s)) (h : execWith c i s = .next t) : t.err = s.err := by
  cases he.symm.trans h
  rfl

/-- A command that is refused has the code it is refused with. -/
theorem Raises.of_complete {i : Instr} {e : Err} (hr : Raises c s i e) (he : execWith c i s = .next (complete e s))
    (h : execWith c i s = .next t) : Raises c s i t.err := by
  cases he.symm.trans h
  exact hr

/-- A command word keeps ERR or succeeds at once, unless it raises a code. -/
theorem err_of_command {i : Instr} {w : Word32} (hi : encode i = .cmd w) (h : execWith c i s = .next t) :
    (t.err = s.err ∨ t.err = .ok) ∨ Raises c s i t.err := by
  cases i with
  | nearest r g b =>
    cases h
    exact .inl (.inr rfl)
  | orient =>
    by_cases hd : classify c (inW s) (inH s) = .mismatch
    · exact .inr <| (Raises.dimensions hd).of_complete (if_pos hd) h
    · exact .inl <| err_of_orUnwritten (fun _ => rfl) ((if_neg hd).symm.trans h)
  | ditherFs | ditherAtk => exact .inl <| err_of_orUnwritten (fun _ => rfl) h
  | pack =>
    by_cases hodd : c.W * c.H % 2 = 1
    · exact .inr <| (Raises.oddPixels hodd).of_complete (execWith_pack_odd hodd) h
    · exact .inl <| err_of_orUnwritten (fun _ => rfl) ((if_neg hodd).symm.trans h)
  | openSession =>
    by_cases hx : s.sess = .closed
    · exact .inl (.inl (err_of_startCommand (execWith_open hx) h))
    · exact .inr <| (Raises.notClosed hx).of_complete (execWith_open_refused hx) h
  | clear id =>
    by_cases hx : s.sess = .idle
    · by_cases hid : id ∈ paletteIds
      · exact .inl (.inl (err_of_startCommand (execWith_clear hx hid) h))
      · exact .inr <| (Raises.notPalette hx hid).of_complete (execWith_clear_nonPalette hx hid) h
    · exact .inr <| (Raises.notIdle (.inl ⟨id, rfl⟩) hx).of_complete (execWith_clear_refused hx) h
  | display len =>
    by_cases hx : s.sess = .idle
    · by_cases hlen : len.toNat = streamSize c
      · exact .inl (.inl (err_of_startCommand (execWith_display hx hlen) h))
      · exact .inr <| (Raises.wrongLength hx hlen).of_complete (execWith_display_wrongLength hx hlen) h
    · exact .inr <| (Raises.notIdle (.inr ⟨len, rfl⟩) hx).of_complete (execWith_display_refused hx) h
  | closeSession => exact .inl (err_of_closeCmd h)
  | _ => cases hi

/-- An instruction keeps ERR or succeeds at once, unless it raises a code. -/
theorem err_of_execWith {i : Instr} (h : execWith c i s = .next t) :
    (t.err = s.err ∨ t.err = .ok) ∨ Raises c s i t.err := by
  cases hi : encode i with
  | cmd w => exact err_of_command hi h
  | panel b =>
    obtain ⟨payload, after, -, he⟩ := execWith_panel c s hi
    cases he.symm.trans h
    obtain hkeep | hbus := err_writeReg c b payload after s
    · exact .inl (.inl hkeep)
    · rw [hbus]
      exact .inr (.busError hi)

/-- An instruction that newly leaves an error code raises it. -/
theorem raises_of_err {i : Instr} {e : Err} (h : execWith c i s = .next t) (ht : t.err = e) (hok : e ≠ .ok)
    (hs : s.err ≠ e) : Raises c s i e := by
  subst ht
  exact (err_of_execWith h).resolve_left fun hkeep => hkeep.elim (fun he => hs he.symm) hok

/-! ### The statements -/

/-- Settles O33: the pixel count of this hardware, 384,000, is even. -/
theorem packRefusesOddPixelCount : Obligations.PackRefusesOddPixelCount := by
  refine ⟨fun _ _ => execWith_pack_odd, fun i s t h ht => ?_⟩
  rw [exec_eq_execWith] at h
  by_contra hs
  cases raises_of_err h ht (by decide) hs with
  | oddPixels hodd => exact absurd hodd (by decide)

/-- Settles O37: the check of the session state comes first. -/
theorem wrongStateRaisesIllegalState : Obligations.WrongStateRaisesIllegalState :=
  fun _ => ⟨execWith_open_refused (c := Config.epd6), fun hx _ => execWith_clear_refused (c := Config.epd6) hx,
    fun hx _ => execWith_display_refused (c := Config.epd6) hx⟩

/-- Settles O38: a frame of this hardware has 192,000 packed bytes, and only DISPLAY compares them. -/
theorem wrongLengthRaisesSizeMismatch : Obligations.WrongLengthRaisesSizeMismatch := by
  have hsize (len : BitVec 24) : len.toNat ≠ streamSize Config.epd6 ↔ len ≠ 192000 :=
    (BitVec.toNat_inj (y := 192000)).not
  refine ⟨fun s len hx hlen => execWith_display_wrongLength (c := Config.epd6) hx ((hsize len).mpr hlen),
    fun i s t h ht hs => ?_⟩
  rw [exec_eq_execWith] at h
  cases raises_of_err h ht (by decide) hs with
  | wrongLength hx hlen => exact ⟨_, rfl, hx, (hsize _).mp hlen⟩

end Sys2Proof.Machine
end

section
/-! SUPPORT. For the settling of O57: every script that keeps the rules ends, whatever the environment answers, shown operation by operation. -/

namespace Sys2Proof.Machine

variable {c : Config} {s t : State} {op : Op} {rest : List Op}

/-! ### Ends -/

/-- The command is over: RUN is 0, or the core has halted at a byte nobody wrote (60_exceptions.md R309). -/
def CommandOver (s : State) : Prop := s.run = false ∨ (s.script = [.halted] ∧ s.faults.unwrittenRead = true)

/-- After finitely many steps the command is over. -/
def Ends (c : Config) (s : State) : Prop := ∃ n t, runWith c n s = .next t ∧ CommandOver t

/-- A core left alone with this script comes to its command's end from any state. -/
def ScriptEnds (c : Config) (ops : List Op) : Prop :=
  ∀ s : State, s.run = true → s.hostQ = [] → s.script = ops → Ends c s

theorem CommandOver.ends (h : CommandOver s) : Ends c s := ⟨0, s, rfl, h⟩

theorem Ends.of_step (hstep : stepWith c (execWith c) s = .next t) (h : Ends c t) : Ends c s := by
  obtain ⟨n, u, hrun, hover⟩ := h
  exact ⟨n + 1, u, (runSteps_next hstep).trans hrun, hover⟩

theorem ends_finish {x : Sess} {e : Err} : Ends c (finish x e s) := CommandOver.ends (.inl rfl)

theorem ends_haltCommand : Ends c (haltCommand .unwrittenRead s) := CommandOver.ends (.inr ⟨rfl, rfl⟩)

/-! ### The operations whose outcome is ignored, and the abort -/

/-- A script ends when its first operation, no fetch, leaves the rest to a state that ends. -/
theorem scriptEnds_op (hop : ∀ k, op ≠ .instr k)
    (h : ∀ s : State, s.run = true → s.hostQ = [] → s.script = rest → Ends c (microStep c op s)) :
    ScriptEnds c (op :: rest) :=
  fun s hr hq hs => .of_step (stepWith_op hr hq hs hop) (h { s with script := rest } hr hq rfl)

theorem scriptEnds_finish {x : Sess} {e : Err} : ScriptEnds c (.finish x e :: rest) :=
  scriptEnds_op (by simp) fun _ _ _ _ => ends_finish

theorem scriptEnds_hold {n : Nat} (h : ScriptEnds c rest) : ScriptEnds c (.hold n :: rest) :=
  scriptEnds_op (by simp) fun s hr hq hs => h (holdFor c n s) hr hq hs

theorem scriptEnds_sess {x : Sess} (h : ScriptEnds c rest) : ScriptEnds c (.sess x :: rest) :=
  scriptEnds_op (by simp) fun s hr hq hs => h { s with sess := x } hr hq hs

theorem scriptEnds_rel (h : ScriptEnds c rest) : ScriptEnds c (.rel :: rest) :=
  scriptEnds_op (by simp) fun s hr hq hs => h (release s) hr hq hs

theorem scriptEnds_relSet {l : Line} (h : ScriptEnds c rest) : ScriptEnds c (.relSet l :: rest) := by
  refine scriptEnds_op (by simp) fun s hr hq hs => ?_
  obtain ⟨u, hu⟩ := driveLine_form c l false s
  rw [microStep, hu]
  exact h _ (by simpa using hr) (by simpa using hq) (by simpa using hs)

/-- The release tail of CLOSE cannot fail (44_panel_protocol.md R203, R204). -/
theorem scriptEnds_releaseTail {e : Err} : ScriptEnds c (releaseTail ++ [.finish .closed e]) :=
  scriptEnds_relSet <| scriptEnds_relSet <| scriptEnds_relSet <| scriptEnds_rel scriptEnds_finish

/-! ### The events that can fail -/

section
variable (hr : s.run = true) (hq : s.hostQ = [])
include hr hq

/-- An error ends the command at once, or after the release tail in CLOSE (R211). -/
theorem ends_abort {e : Err} : Ends c (abort e s) := by
  by_cases hc : s.cmd = some .closeSession
  · rw [abort_of_close hc]
    exact scriptEnds_releaseTail _ hr hq rfl
  · rw [abort_of_ne_close hc]
    exact ends_finish

theorem ends_setLine {l : Line} {v : Bool} (h : ScriptEnds c s.script) : Ends c (setLine c l v s) := by
  rcases ack_cases (c.ack s.draws) with hack | hack
  · rw [setLine_ok hack]
    exact h _ (by simpa using hr) (by simpa using hq) (by simp)
  · obtain ⟨u, hu⟩ := setLine_err (l := l) (v := v) hack
    rw [hu]
    exact ends_abort (by simpa using hr) (by simpa using hq)

theorem ends_transfer {b : Byte} (h : ScriptEnds c s.script) : Ends c (transfer c b s) := by
  rcases ack_cases (c.ack s.draws) with hack | hack
  · rw [transfer_ok hack]
    exact h _ hr hq rfl
  · rw [transfer_err hack]
    exact ends_abort (s := emit (.xfer s.dc b .err) s) hr hq

theorem ends_acquire (h : ScriptEnds c s.script) : Ends c (acquire c s) := by
  rcases ack_cases (c.ack s.draws) with hack | hack
  · rw [acquire_ok hack]
    exact h _ hr hq rfl
  · rw [acquire_err hack]
    exact ends_abort (s := emit (.acq .err) s) hr hq

/-- A sample ends the wait or, before the bound, is followed by a hold (R209). -/
theorem ends_pollBusy {k : Nat} (h : ScriptEnds c s.script)
    (hagain : k ≠ nPoll c → ScriptEnds c (.pollHold k :: s.script)) : Ends c (pollBusy c k s) := by
  cases hv : c.sample s.draws with
  | none =>
    rw [pollBusy_err hv]
    exact ends_abort (s := emit (.sample none) s) hr hq
  | some v =>
    by_cases hidle : v = c.busyIdleLevel
    · rw [pollBusy_idle (hidle ▸ hv)]
      exact h _ hr hq rfl
    · by_cases hk : k = nPoll c
      · rw [hk, pollBusy_timeout hv hidle]
        exact ends_abort (s := { emit (.sample (some v)) s with busyRaw := v }) hr hq
      · rw [pollBusy_again hv hidle hk]
        exact hagain hk _ hr hq rfl

end

theorem scriptEnds_set {l : Line} {v : Bool} (h : ScriptEnds c rest) : ScriptEnds c (.set l v :: rest) :=
  scriptEnds_op (by simp) fun _ hr hq hs => ends_setLine hr hq (hs ▸ h)

theorem scriptEnds_xfer {b : Byte} (h : ScriptEnds c rest) : ScriptEnds c (.xfer b :: rest) :=
  scriptEnds_op (by simp) fun _ hr hq hs => ends_transfer hr hq (hs ▸ h)

theorem scriptEnds_acq (h : ScriptEnds c rest) : ScriptEnds c (.acq :: rest) :=
  scriptEnds_op (by simp) fun _ hr hq hs => ends_acquire hr hq (hs ▸ h)

theorem scriptEnds_pollHold {k : Nat} (h : ScriptEnds c (.busyWait (k + 1) :: rest)) :
    ScriptEnds c (.pollHold k :: rest) :=
  scriptEnds_op (by simp) fun s hr hq hs => h (microStep c (.pollHold k) s) hr hq (by rw [← hs]; rfl)

/-- A busy-wait samples at most as often as intervals are left before the bound (R209). -/
theorem scriptEnds_busyWait {k : Nat} (hk : k ≤ nPoll c) (h : ScriptEnds c rest) :
    ScriptEnds c (.busyWait k :: rest) := by
  induction hk using Nat.decreasingInduction with
  | self => exact scriptEnds_op (by simp) fun _ hr hq hs => ends_pollBusy hr hq (hs ▸ h) (absurd rfl)
  | of_succ k _ ih =>
    exact scriptEnds_op (by simp) fun _ hr hq hs => ends_pollBusy hr hq (hs ▸ h) fun _ => hs ▸ scriptEnds_pollHold ih

/-! ### The data bytes and the register writes (R206 to R208) -/

/-- `SendData(b)` begins, with `after` to follow. -/
theorem ends_sendData {b : Byte} {after : List Op} (hr : s.run = true) (hq : s.hostQ = [])
    (h : ScriptEnds c (after ++ s.script)) : Ends c (sendData c b after s) :=
  ends_setLine (s := { s with script := .xfer b :: (after ++ s.script) }) hr hq (scriptEnds_xfer h)

theorem scriptEnds_dataOps (p : List Byte) (h : ScriptEnds c rest) : ScriptEnds c (dataOps p ++ rest) := by
  induction p with
  | nil => exact h
  | cons b p ih => exact scriptEnds_set (scriptEnds_xfer ih)

/-- CLEAR's data bytes (45_session.md R261). -/
theorem scriptEnds_fillOps (b : Byte) (n : Nat) (h : ScriptEnds c rest) : ScriptEnds c (fillOps b n ++ rest) := by
  induction n with
  | zero => exact h
  | succ n ih => exact scriptEnds_op (by simp) fun _ hr hq hs => ends_sendData hr hq (hs ▸ ih)

/-- DISPLAY's data bytes (R262): the stream goes on, or halts at a byte nobody wrote. -/
theorem scriptEnds_streamOps (k n : Nat) (h : ScriptEnds c rest) : ScriptEnds c (streamOps k n ++ rest) := by
  induction n generalizing k with
  | zero => exact h
  | succ n ih =>
    refine scriptEnds_op (by simp) fun s hr hq hs => ?_
    cases hbyte : readByte s.packRam k with
    | none => simpa [microStep, hbyte] using ends_haltCommand
    | some b =>
      rw [microStep_stream hbyte]
      exact ends_sendData hr hq (hs ▸ ih (k + 1))

theorem scriptEnds_fill {b : Byte} {n : Nat} (h : ScriptEnds c rest) : ScriptEnds c (.fill b n :: rest) := by
  cases n with
  | zero => exact scriptEnds_op (by simp) h
  | succ n => exact scriptEnds_fillOps b (n + 1) h

theorem scriptEnds_stream {k n : Nat} (h : ScriptEnds c rest) : ScriptEnds c (.stream k n :: rest) := by
  cases n with
  | zero => exact scriptEnds_op (by simp) h
  | succ n => exact scriptEnds_streamOps k (n + 1) h

theorem scriptEnds_ramPayload (cmd : Option Instr) (h : ScriptEnds c rest) :
    ScriptEnds c (ramPayload c cmd ++ rest) := by
  cases cmd with
  | none => exact h
  | some i =>
    cases i with
    | clear id => exact scriptEnds_fillOps _ _ h
    | display len => exact scriptEnds_streamOps _ _ h
    | _ => exact h

theorem scriptEnds_writeTail {cmd : Option Instr} {after : List Op} (hw : WriteTail c cmd after)
    (h : ScriptEnds c rest) : ScriptEnds c (after ++ rest) := by
  rcases hw with rfl | rfl | rfl
  · exact h
  · exact scriptEnds_busyWait (Nat.zero_le _) h
  · exact scriptEnds_ramPayload cmd h

/-- A panel command byte is fetched, and its register write ends (44_panel_protocol.md R208). -/
theorem scriptEnds_panel {b : Byte} (hb : b ∈ panelBytes) (h : ScriptEnds c rest) :
    ScriptEnds c (.instr (.panel b) :: rest) := by
  intro s hr hq hs
  obtain ⟨i, hd⟩ := decodePanel_of_mem hb
  obtain ⟨payload, after, hw, hexec⟩ := execWith_panel c s (encode_of_decodePanel hd)
  have hdata : ScriptEnds c (dataOps payload ++ (after ++ s.script.tail)) :=
    scriptEnds_dataOps payload (scriptEnds_writeTail hw (hs ▸ h))
  rw [← List.append_assoc] at hdata
  refine .of_step ((stepWith_alone hq).trans ((coreStep_instr hr hs hd).trans hexec)) ?_
  exact ends_setLine (s := { s with script := .xfer b :: (dataOps payload ++ after ++ s.script.tail) }) hr hq
    (scriptEnds_xfer hdata)

/-- Every script that keeps the rules ends. -/
theorem scriptEnds_of_planOk {cmd : Option Instr} {x : Sess} {dc own : Bool} {ops : List Op}
    (hp : planOk c cmd x dc own ops = true) : ScriptEnds c ops := by
  induction ops generalizing x dc own with
  | nil => simp [planOk] at hp
  | cons op ops ih =>
    cases op with
    | instr k =>
      cases k with
      | cmd w => simp [planOk] at hp
      | panel b =>
        simp only [planOk, Bool.and_eq_true, decide_eq_true_eq] at hp
        obtain ⟨⟨⟨hb, -⟩, -⟩, hp⟩ := hp
        exact scriptEnds_panel hb (ih hp)
    | busyWait k =>
      simp only [planOk, Bool.and_eq_true, decide_eq_true_eq] at hp
      obtain ⟨⟨-, hk⟩, hp⟩ := hp
      exact scriptEnds_busyWait hk (ih hp)
    | pollHold k =>
      simp only [planOk, Bool.and_eq_true, decide_eq_true_eq] at hp
      obtain ⟨⟨-, hk⟩, hp⟩ := hp
      exact scriptEnds_pollHold (scriptEnds_busyWait hk (ih hp))
    | finish y e => exact scriptEnds_finish
    | halted => simp [planOk] at hp
    | hold n => exact scriptEnds_hold (ih hp)
    | acq => exact scriptEnds_acq (ih (Bool.and_eq_true_iff.mp hp).2)
    | set l v => exact scriptEnds_set (ih (Bool.and_eq_true_iff.mp hp).2)
    | xfer b => exact scriptEnds_xfer (ih (Bool.and_eq_true_iff.mp hp).2)
    | fill b n => exact scriptEnds_fill (ih (Bool.and_eq_true_iff.mp hp).2)
    | stream k n => exact scriptEnds_stream (ih (Bool.and_eq_true_iff.mp hp).2)
    | sess y => exact scriptEnds_sess (ih (Bool.and_eq_true_iff.mp hp).2)
    | relSet l => exact scriptEnds_relSet (ih (Bool.and_eq_true_iff.mp hp).2)
    | rel => exact scriptEnds_rel (ih (Bool.and_eq_true_iff.mp hp).2)

/-! ### The commands -/

theorem orUnwritten_answers {α : Type} (r : Option α) (s : State) (k : α → State) :
    ∃ t, orUnwritten r s k = .next t := by
  cases r <;> exact ⟨_, rfl⟩

/-- CLOSE has a case for each settled state (45_session.md R263). -/
theorem execWith_close_answers (hx : Settled s.sess) : ∃ t, execWith c .closeSession s = .next t := by
  rcases hx with hx | hx | hx
  · simp [execWith, closeCmd, hx]
  · exact ⟨_, execWith_close_idle hx⟩
  · cases ho : s.own <;> simp [execWith, closeCmd, hx, ho]

/-- In a settled state every command answers. -/
theorem command_answers {i : Instr} {w : Word32} (hi : encode i = .cmd w) (hx : Settled s.sess) :
    ∃ t, execWith c i s = .next t := by
  cases i with
  | nearest r g b => exact ⟨_, rfl⟩
  | orient =>
    by_cases hd : classify c (inW s) (inH s) = .mismatch
    · exact ⟨_, if_pos hd⟩
    · exact (orUnwritten_answers _ s _).imp fun _ => (if_neg hd).trans
  | ditherFs | ditherAtk => exact orUnwritten_answers _ s _
  | pack =>
    by_cases hodd : c.W * c.H % 2 = 1
    · exact ⟨_, execWith_pack_odd hodd⟩
    · exact (orUnwritten_answers _ s _).imp fun _ => (if_neg hodd).trans
  | openSession => exact ⟨_, (apply_ite Host.Outcome.next _ _ _).symm⟩
  | clear id =>
    by_cases hidle : s.sess = .idle
    · exact ⟨_, (if_pos hidle).trans (apply_ite Host.Outcome.next _ _ _).symm⟩
    · exact ⟨_, execWith_clear_refused hidle⟩
  | display len =>
    by_cases hidle : s.sess = .idle
    · exact ⟨_, (if_pos hidle).trans (apply_ite Host.Outcome.next _ _ _).symm⟩
    · exact ⟨_, execWith_display_refused hidle⟩
  | closeSession => exact execWith_close_answers hx
  | _ => cases hi

/-- A command ends at once, halts at an unwritten byte, or starts a script that keeps the rules. -/
theorem ends_of_commandEffect {i : Instr} (hb : ∀ b ∈ c.turnonBooster, b ∈ panelBytes) (hr : s.run = true)
    (hq : s.hostQ = []) (h : CommandEffect c s i t) : Ends c t := by
  cases h with
  | ends | nearest | frame | packed | forgets => exact ends_finish
  | unwritten hi => exact ends_haltCommand
  | opens hx => exact scriptEnds_of_planOk (planOk_openScript (d := false)) _ hr hq rfl
  | refreshes hi hx =>
    have ha : mayAbort (some i) .busy = true := by rcases hi with ⟨_, rfl⟩ | ⟨_, rfl⟩ <;> rfl
    exact scriptEnds_of_planOk (planOk_refreshScript (d := false) hb ha) _ hr hq rfl
  | closes hx => exact scriptEnds_of_planOk (planOk_closeScript (d := false)) _ hr hq rfl
  | releases hx ho => exact scriptEnds_releaseTail _ hr hq rfl

/-- An accepted word is refused, or its command ends. -/
theorem ends_of_word {w : Word32} (hb : ∀ b ∈ c.turnonBooster, b ∈ panelBytes) (hr : s.run = true)
    (hq : s.hostQ = []) (hs : s.script = [.instr (.cmd w)]) (hx : Settled s.sess) : Ends c s := by
  cases hd : decodeCommand w with
  | error e => exact .of_step ((stepWith_alone hq).trans (coreStep_illegal hr hs hd)) ends_finish
  | ok i =>
    obtain ⟨w', hi⟩ := encode_of_decodeCommand hd
    obtain ⟨t, hexec⟩ := command_answers (c := c) hi hx
    exact .of_step ((stepWith_alone hq).trans ((coreStep_instr hr hs hd).trans hexec))
      (ends_of_commandEffect hb hr hq (execWith_command hi hexec))

/-- With the sequencer in order, a core that no model fault has halted ends its command (70_reset_and_hazards.md R352). -/
theorem ends_of_sequencerOk (hb : ∀ b ∈ c.turnonBooster, b ∈ panelBytes) (h : SequencerOk c s) (hq : s.hostQ = [])
    (hh : s.script ≠ [.halted]) : Ends c s := by
  by_cases hr : s.run = true
  · obtain ⟨hx, -, w, hs⟩ | hp | ⟨hhalted, -⟩ := sequencerOk_run h hr
    · exact ends_of_word hb hr hq hs hx
    · exact scriptEnds_of_planOk hp s hr hq rfl
    · exact absurd hhalted hh
  · exact CommandOver.ends (.inl (by simpa using hr))

/-- Settles O57: by induction on the script, whose busy-waits are bounded and whose errors end it or leave the release tail. -/
theorem everyCommandEnds : Obligations.EveryCommandEnds := by
  intro s h hq hh
  obtain ⟨-, hseq, -⟩ := h
  rw [funext step_eq_stepWith]
  exact ends_of_sequencerOk (by simp [Config.epd6, panelBytes]) hseq hq hh

end Sys2Proof.Machine
end
